-- ==== Sys2Proof/Word.lean ====
section
/-! DEFINITION. The words and names of the block's interface: the 64-bit operand and result bus, the 5-bit command
word, the three ports, the presented command, and the mnemonics by which completions are recorded. -/

namespace Sys2Proof

/-- An operand bus `t_a`, `t_b` or a result bus `P_rdata` (30_encoding.md R91, R95). -/
abbrev Word64 := BitVec 64

/-- The command word `cmd[4:0]`: `port` in bits 4:3, `op` in bits 2:0 (30_encoding.md R96). -/
abbrev CmdWord := BitVec 5

/-- A status register `P_status` (30_encoding.md R97). -/
abbrev StatusWord := BitVec 3

/-- The three ports (30_encoding.md R91). -/
inductive Port where
  | w
  | r
  | t
deriving DecidableEq, Repr

/-- What a requester presents: a command word and the values on the operand buses (30_encoding.md R91, R96, R100).
`wData` is the `w_data` bus in a 64-bit container; a block of item width `W` has only its low `W` wires. DEDUCED (log
entry 7). -/
structure Cmd where
  word  : CmdWord
  wData : Word64
  tA    : Word64
  tB    : Word64
deriving DecidableEq, Repr

/-- The commands that can complete, by mnemonic (30_encoding.md R98; the reserved codes under the names
opcode_table.json gives them). -/
inductive Mnemonic where
  | wNop | push | pushBlocking | wFull | wSize | wEmpty | wOvf | wReserved111
  | rNop | pop | rReserved010 | rFull | rSize | rEmpty | rReserved110 | rReserved111
  | tNop | now | elapsed | t2d | d2t | sleepUntil | init | tReserved111
deriving DecidableEq, Repr

end Sys2Proof
end

