-- ==== Sys2Proof/Config.lean ====
section
/-! DEFINITION. What an implementation fixes at elaboration: the parameters of 00_scope.md R6 to R9, with the check of
R12 carried in the type, so that no state of a rejected configuration exists. The elaboration check by name is
Machine/Elaborate.lean. No value of this block is left free by the spec, so there is no free constant. -/

namespace Sys2Proof

/-- The configuration check of 00_scope.md R12 on parameters already given as `A`, `W`, `S`, `CW`. -/
def Config.admits (A W S CW : Nat) : Bool :=
  decide (A ≤ 32) && decide (1 ≤ W) && decide (W ≤ 64) && decide (2 ≤ S) && decide (1 ≤ CW) && decide (CW ≤ 64)

/-- An admitted configuration (00_scope.md R12). -/
structure Config where
  /-- log2 of the capacity (R6). -/
  A  : Nat
  /-- Item width (R7). -/
  W  : Nat
  /-- Synchronizer stages per crossing (R8); no operation-level rule reads it (20_memory.md R66). -/
  S  : Nat
  /-- Counter width (R9). -/
  CW : Nat
  /-- The check of R12 holds. -/
  ok : Config.admits A W S CW = true
deriving DecidableEq, Repr

/-- The capacity `N = 2^A` in slots (00_scope.md R6). -/
def Config.N (c : Config) : Nat := 2 ^ c.A

/-- The configuration of `State.reset`: the spec's defaults `W = 8`, `S = 2`, `CW = 64` (00_scope.md section 3), and
`A = 3`, the capacity of the spec's test vectors (95_test_vectors.md). DESIGN CHOICE (log entry 6). -/
def Config.standard : Config := ⟨3, 8, 2, 64, rfl⟩

end Sys2Proof
end

