-- ==== Sys2Proof/Syntax.lean ====
section
/-! DEFINITION. The commands of the block, one constructor per row of the opcode table (30_encoding.md R98), with the
values of the operand buses each one reads (R100). -/

namespace Sys2Proof

/-- A command with its operands as they stand on the buses; each meaning takes the bits R100 names. -/
inductive Instr where
  -- W port (40_producer_ops.md)
  | wNop
  | push (item : Word64)
  | pushBlocking (item : Word64)
  | wFull
  | wSize
  | wEmpty
  | wOvf
  | wReserved111
  -- R port (41_consumer_ops.md)
  | rNop
  | pop
  | rReserved010
  | rFull
  | rSize
  | rEmpty
  | rReserved110
  | rReserved111
  -- T port (42_counter_ops.md)
  | tNop
  | now
  | elapsed (start now : Word64)
  | t2d (ticks period : Word64)
  | d2t (duration period : Word64)
  | sleepUntil (target : Word64)
  | init
  | tReserved111
  -- port field 11: no port (30_encoding.md R99 item 2)
  | noPort (op : BitVec 3)
deriving DecidableEq, Repr

end Sys2Proof
end

