-- ==== Sys2Proof/WellFormed.lean ====
section
/-! DEFINITION. Which commands the ports of a block of a given configuration can carry: an item fits the `W` wires of
`w_data` (30_encoding.md R91, R100), and a command names a port (R99 item 2). -/

namespace Sys2Proof

/-- The value fits the `W`-bit bus `w_data` (00_scope.md R7). -/
def fitsItem (c : Config) (item : Word64) : Bool := decide (item.toNat < 2 ^ c.W)

/-- A command that the ports of a block of configuration `c` can carry. -/
def wellFormed (c : Config) : Instr → Bool
  | .push item => fitsItem c item
  | .pushBlocking item => fitsItem c item
  | .noPort _ => false
  | .wNop | .wFull | .wSize | .wEmpty | .wOvf | .wReserved111 => true
  | .rNop | .pop | .rReserved010 | .rFull | .rSize | .rEmpty | .rReserved110 | .rReserved111 => true
  | .tNop | .now | .elapsed _ _ | .t2d _ _ | .d2t _ _ | .sleepUntil _ | .init | .tReserved111 => true

end Sys2Proof
end

