-- ==== Sys2Proof/Decode.lean ====
section
/-! DEFINITION. Decoder and encoder of the command word (30_encoding.md R96 to R101), the port of a command, and the
token-level assembler of R102. -/

namespace Sys2Proof

/-- Why the decoder rejects a command word: its port field 11 names no port (30_encoding.md R99 item 2). -/
inductive DecodeReject where
  | noPort
deriving DecidableEq, Repr

/-- The port field `cmd[4:3]` (30_encoding.md R96). -/
def portField (w : CmdWord) : BitVec 2 := w.extractLsb' 3 2

/-- The operation field `cmd[2:0]` (30_encoding.md R96). -/
def opField (w : CmdWord) : BitVec 3 := w.extractLsb' 0 3

/-- The command word of a port field and an operation field. -/
def cmdWord (port : BitVec 2) (op : BitVec 3) : CmdWord := port ++ op

/-- The W-port rows of the opcode map (30_encoding.md R98). -/
def decodeW (op : BitVec 3) (wData : Word64) : Instr :=
  match op.toNat with
  | 0 => .wNop
  | 1 => .push wData
  | 2 => .pushBlocking wData
  | 3 => .wFull
  | 4 => .wSize
  | 5 => .wEmpty
  | 6 => .wOvf
  | _ => .wReserved111

/-- The R-port rows of the opcode map (30_encoding.md R98). -/
def decodeR (op : BitVec 3) : Instr :=
  match op.toNat with
  | 0 => .rNop
  | 1 => .pop
  | 2 => .rReserved010
  | 3 => .rFull
  | 4 => .rSize
  | 5 => .rEmpty
  | 6 => .rReserved110
  | _ => .rReserved111

/-- The T-port rows of the opcode map (30_encoding.md R98). -/
def decodeT (op : BitVec 3) (tA tB : Word64) : Instr :=
  match op.toNat with
  | 0 => .tNop
  | 1 => .now
  | 2 => .elapsed tA tB
  | 3 => .t2d tA tB
  | 4 => .d2t tA tB
  | 5 => .sleepUntil tA
  | 6 => .init
  | _ => .tReserved111

/-- The decoder (30_encoding.md R96, R98, R99). Operands are not part of the word: R100 says which bus gives each, and
every other bus is ignored. -/
def decode (c : Cmd) : Except DecodeReject Instr :=
  match (portField c.word).toNat with
  | 0 => .ok (decodeW (opField c.word) c.wData)
  | 1 => .ok (decodeR (opField c.word))
  | 2 => .ok (decodeT (opField c.word) c.tA c.tB)
  | _ => .error .noPort

/-- The command word of each row (30_encoding.md R98). -/
def encodeWord : Instr → CmdWord
  | .wNop => 0b00000#5
  | .push _ => 0b00001#5
  | .pushBlocking _ => 0b00010#5
  | .wFull => 0b00011#5
  | .wSize => 0b00100#5
  | .wEmpty => 0b00101#5
  | .wOvf => 0b00110#5
  | .wReserved111 => 0b00111#5
  | .rNop => 0b01000#5
  | .pop => 0b01001#5
  | .rReserved010 => 0b01010#5
  | .rFull => 0b01011#5
  | .rSize => 0b01100#5
  | .rEmpty => 0b01101#5
  | .rReserved110 => 0b01110#5
  | .rReserved111 => 0b01111#5
  | .tNop => 0b10000#5
  | .now => 0b10001#5
  | .elapsed _ _ => 0b10010#5
  | .t2d _ _ => 0b10011#5
  | .d2t _ _ => 0b10100#5
  | .sleepUntil _ => 0b10101#5
  | .init => 0b10110#5
  | .tReserved111 => 0b10111#5
  | .noPort op => cmdWord 0b11#2 op

/-- The value each command needs on `w_data`; a bus it does not read is left at 0 (30_encoding.md R100). -/
def encodeWData : Instr → Word64
  | .push item => item
  | .pushBlocking item => item
  | .wNop | .wFull | .wSize | .wEmpty | .wOvf | .wReserved111 => 0
  | .rNop | .pop | .rReserved010 | .rFull | .rSize | .rEmpty | .rReserved110 | .rReserved111 => 0
  | .tNop | .now | .elapsed _ _ | .t2d _ _ | .d2t _ _ | .sleepUntil _ | .init | .tReserved111 => 0
  | .noPort _ => 0

/-- The values each command needs on `t_a` and `t_b` (30_encoding.md R100). -/
def encodeT : Instr → Word64 × Word64
  | .elapsed start now => (start, now)
  | .t2d ticks period => (ticks, period)
  | .d2t duration period => (duration, period)
  | .sleepUntil target => (target, 0)
  | .wNop | .push _ | .pushBlocking _ | .wFull | .wSize | .wEmpty | .wOvf | .wReserved111 => (0, 0)
  | .rNop | .pop | .rReserved010 | .rFull | .rSize | .rEmpty | .rReserved110 | .rReserved111 => (0, 0)
  | .tNop | .now | .init | .tReserved111 => (0, 0)
  | .noPort _ => (0, 0)

/-- The encoder: what a requester presents to issue `i`. -/
def encode (i : Instr) : Cmd :=
  { word := encodeWord i, wData := encodeWData i, tA := (encodeT i).1, tB := (encodeT i).2 }

/-- The port a command is issued on; `noPort` names none (30_encoding.md R98, R99). -/
def Instr.port? : Instr → Option Port
  | .wNop | .push _ | .pushBlocking _ | .wFull | .wSize | .wEmpty | .wOvf | .wReserved111 => some .w
  | .rNop | .pop | .rReserved010 | .rFull | .rSize | .rEmpty | .rReserved110 | .rReserved111 => some .r
  | .tNop | .now | .elapsed _ _ | .t2d _ _ | .d2t _ _ | .sleepUntil _ | .init | .tReserved111 => some .t
  | .noPort _ => none

/-- The mnemonic of a command that names a port (30_encoding.md R98). -/
def Instr.mnemonic? : Instr → Option Mnemonic
  | .wNop => some .wNop
  | .push _ => some .push
  | .pushBlocking _ => some .pushBlocking
  | .wFull => some .wFull
  | .wSize => some .wSize
  | .wEmpty => some .wEmpty
  | .wOvf => some .wOvf
  | .wReserved111 => some .wReserved111
  | .rNop => some .rNop
  | .pop => some .pop
  | .rReserved010 => some .rReserved010
  | .rFull => some .rFull
  | .rSize => some .rSize
  | .rEmpty => some .rEmpty
  | .rReserved110 => some .rReserved110
  | .rReserved111 => some .rReserved111
  | .tNop => some .tNop
  | .now => some .now
  | .elapsed _ _ => some .elapsed
  | .t2d _ _ => some .t2d
  | .d2t _ _ => some .d2t
  | .sleepUntil _ => some .sleepUntil
  | .init => some .init
  | .tReserved111 => some .tReserved111
  | .noPort _ => none

/-- The presented command of a bit pattern of `opcode_table.json`: the word is `cmd[4:0]`, and every operand bus reads
0. A pattern that does not fit five bits is no command word; it is laid out as one that names no port, which the decoder
rejects. DEDUCED (log entry 8). -/
def Cmd.ofTable (_nbits w : Nat) : Cmd :=
  { word := if w < 32 then BitVec.ofNat 5 w else 0b11000#5, wData := 0, tA := 0, tB := 0 }

/-- The instruction the decoder reads from a bit pattern numbered as `opcode_table.json` numbers it. -/
def decodeTableWord (nbits w : Nat) : Option Instr :=
  match decode (Cmd.ofTable nbits w) with
  | .ok i => some i
  | .error _ => none

/-- One line of the assembler syntax of 30_encoding.md R102, already cut into its mnemonic and its unsigned operands in
the order of R100; `none` where the operand count is wrong or an operand does not fit its bus. -/
def assemble (c : Config) (m : Mnemonic) (operands : List Nat) : Option Instr :=
  let fits := operands.all (fun n => decide (n < 2 ^ 64))
  let i? : Option Instr :=
    match m, operands with
    | .wNop, [] => some .wNop
    | .push, [x] => some (.push (BitVec.ofNat 64 x))
    | .pushBlocking, [x] => some (.pushBlocking (BitVec.ofNat 64 x))
    | .wFull, [] => some .wFull
    | .wSize, [] => some .wSize
    | .wEmpty, [] => some .wEmpty
    | .wOvf, [] => some .wOvf
    | .wReserved111, [] => some .wReserved111
    | .rNop, [] => some .rNop
    | .pop, [] => some .pop
    | .rReserved010, [] => some .rReserved010
    | .rFull, [] => some .rFull
    | .rSize, [] => some .rSize
    | .rEmpty, [] => some .rEmpty
    | .rReserved110, [] => some .rReserved110
    | .rReserved111, [] => some .rReserved111
    | .tNop, [] => some .tNop
    | .now, [] => some .now
    | .elapsed, [x, y] => some (.elapsed (BitVec.ofNat 64 x) (BitVec.ofNat 64 y))
    | .t2d, [x, y] => some (.t2d (BitVec.ofNat 64 x) (BitVec.ofNat 64 y))
    | .d2t, [x, y] => some (.d2t (BitVec.ofNat 64 x) (BitVec.ofNat 64 y))
    | .sleepUntil, [x] => some (.sleepUntil (BitVec.ofNat 64 x))
    | .init, [] => some .init
    | .tReserved111, [] => some .tReserved111
    | _, _ => none
  if fits then i?.filter (wellFormed c) else none

end Sys2Proof
end

