-- ==== Sys2Proof/Machine/State.lean ====
section
/-! DEFINITION. The whole state of the block (10_state.md), the run's history, and the host's inputs; the reasons a step
stops; and the state after reset. -/

namespace Sys2Proof.Machine

/-- The status codes of 30_encoding.md R97. Codes 5 to 7 are reserved and never produced. -/
inductive Status where
  | ok
  | full
  | empty
  | illegal
  | divZero
deriving DecidableEq, Repr

/-- One completion of a port's operation, `(port, mnemonic, st, rd)` (40_producer_ops.md R120). `rd` is `none` where
the rule says `rd = keep`. -/
structure Completion where
  port     : Port
  mnemonic : Mnemonic
  st       : Status
  rd       : Option Word64
deriving DecidableEq, Repr

/-- An entry of the run's history: a completion, or a mark that the block was reset (70_reset_and_hazards.md R240 says a
reset does not erase the history; the mark is a DESIGN CHOICE, log entry 5). -/
inductive Event where
  | completed (c : Completion)
  | reset
deriving DecidableEq, Repr

/-- The agents that take steps (10_state.md R45). -/
inductive Agent where
  | wreq
  | weng
  | rreq
  | treq
  | teng
  | syncH
  | syncT
  | tick
  | rst
deriving DecidableEq, Repr

/-- One entry of the schedule: what the host's clocks and inputs let happen next. DESIGN CHOICE (log
entries 2, 4 and 13). -/
inductive Slot where
  /-- One step of one agent (00_scope.md R18); nothing happens if that step is not enabled. -/
  | agent (a : Agent)
  /-- One clock edge of a port's domain at which nothing completes on the port: its ack pulse is over (10_state.md R34). -/
  | quiet (p : Port)
  /-- The host changes what the requester of a port presents: these commands, in this order, from now on (30_encoding.md
  R93, 60_exceptions.md R224). -/
  | present (p : Port) (cs : List Cmd)
  /-- The directive `.sync`: both views catch up (30_encoding.md R102). -/
  | sync
  /-- One `wclk` edge: a command if `valid`, then the view `tail_w` moves by up to `shift` (60_exceptions.md R217 item 2). -/
  | wEdge (valid : Bool) (shift : Nat)
  /-- One `rclk` edge: a command if `valid`, then the view `head_r` moves by up to `shift` (60_exceptions.md R217 item 3). -/
  | rEdge (valid : Bool) (shift : Nat)
  /-- One `tclk` edge: a command if `valid`, then a tick if `tick` and no INIT is issued (42_counter_ops.md R181). -/
  | tEdge (valid tick : Bool)
deriving DecidableEq, Repr

/-- The slot storage (10_state.md R35): pairs of a slot index and its item, indices strictly rising. A slot that is not
listed holds no value. The pair form is a DESIGN CHOICE (log entry 10). -/
abbrev Memory (w : Nat) := List (Nat × BitVec w)

/-- Why the machine stops with a fault. -/
inductive Fault where
  /-- A POP read a slot that holds no value (10_state.md R35, 92_eei_decisions.md D37). Raised by POP only. Safe: no
  admitted run reaches it (20_memory.md R68). -/
  | unwrittenSlot (slot : Nat)
deriving DecidableEq, Repr

/-- Why an instruction has no step. -/
inductive Refusal where
  /-- No meaning given yet. Raised by no arm of this model. Safe. -/
  | notModelled (mnemonic : String)
  /-- A command word whose port field 11 names no port: refused at the decoder (30_encoding.md R99 item 2). Raised by
  NO_PORT and by a requester that presents such a word. Safe. -/
  | noPort
  /-- A requester presented a command of another port: no agent but that port's requester may issue it (10_state.md R45,
  60_exceptions.md R218). DESIGN CHOICE (log entry 9). Raised by the requesters' steps. Safe. -/
  | foreignPort
deriving DecidableEq, Repr

/-- The state of the block and of its run. Widths are those of the configuration. -/
structure State where
  /-- The parameters, fixed at elaboration (00_scope.md R12); no step changes them. -/
  cfg      : Config
  /-- `head` (10_state.md R31). -/
  head     : BitVec cfg.A
  /-- `head_gray` (10_state.md R31). -/
  headGray : BitVec cfg.A
  /-- `tail_w`, the producer's view of the tail (10_state.md R32, 20_memory.md R65). -/
  tailW    : BitVec cfg.A
  /-- `ovf` (10_state.md R33). -/
  ovf      : BitVec 32
  /-- `w_busy` (10_state.md R34). -/
  wBusy    : Bool
  /-- `w_pdata` (10_state.md R34). -/
  wPdata   : BitVec cfg.W
  /-- `w_ack` (10_state.md R34). -/
  wAck     : Bool
  /-- `w_status` (10_state.md R34). -/
  wStatus  : StatusWord
  /-- `w_rdata` (10_state.md R34). -/
  wRdata   : Word64
  /-- `mem[0..N-1]` (10_state.md R35). -/
  mem      : Memory cfg.W
  /-- `tail` (10_state.md R36). -/
  tail     : BitVec cfg.A
  /-- `tail_gray` (10_state.md R36). -/
  tailGray : BitVec cfg.A
  /-- `head_r`, the consumer's view of the head (10_state.md R37, 20_memory.md R65). -/
  headR    : BitVec cfg.A
  /-- `r_ack` (10_state.md R38). -/
  rAck     : Bool
  /-- `r_status` (10_state.md R38). -/
  rStatus  : StatusWord
  /-- `r_rdata` (10_state.md R38). -/
  rRdata   : Word64
  /-- `count` (10_state.md R39). -/
  count    : BitVec cfg.CW
  /-- `t_busy` (10_state.md R40). -/
  tBusy    : Bool
  /-- `t_target` (10_state.md R40). -/
  tTarget  : Word64
  /-- `t_ack` (10_state.md R40). -/
  tAck     : Bool
  /-- `t_status` (10_state.md R40). -/
  tStatus  : StatusWord
  /-- `t_rdata` (10_state.md R40). -/
  tRdata   : Word64
  /-- The run's history, oldest first (40_producer_ops.md R120, 70_reset_and_hazards.md R240). -/
  history  : List Event
  /-- The commands WREQ presents, in issue order (30_encoding.md R93, R94). -/
  wCmds    : List Cmd
  /-- The commands RREQ presents, in issue order. -/
  rCmds    : List Cmd
  /-- The commands TREQ presents, in issue order. -/
  tCmds    : List Cmd
  /-- The schedule: what happens next (00_scope.md R18). -/
  sched    : List Slot
deriving DecidableEq, Repr

/-- The reset state of a block of configuration `c` (10_state.md R48), with an empty history and a host that presents
nothing. -/
def State.resetWith (c : Config) : State where
  cfg := c
  head := 0
  headGray := 0
  tailW := 0
  ovf := 0
  wBusy := false
  wPdata := 0
  wAck := false
  wStatus := 0
  wRdata := 0
  mem := []
  tail := 0
  tailGray := 0
  headR := 0
  rAck := false
  rStatus := 0
  rRdata := 0
  count := 0
  tBusy := false
  tTarget := 0
  tAck := false
  tStatus := 0
  tRdata := 0
  history := []
  wCmds := []
  rCmds := []
  tCmds := []
  sched := []

/-- The machine right after reset, at the configuration `Config.standard`. -/
def State.reset : State := State.resetWith Config.standard

end Sys2Proof.Machine
end

