-- ==== Sys2Proof/Machine/Operands.lean ====
section
/-! DEFINITION. Operand assembly (30_encoding.md R100), result extension (R95), and the Gray code of an index
(00_scope.md R15). Index and count arithmetic is `BitVec` arithmetic, which is modulo the width's power of two
(00_scope.md R14). -/

namespace Sys2Proof.Machine

/-- `zext_64(v)` (00_scope.md R13, 30_encoding.md R95). -/
def zext64 {n : Nat} (v : BitVec n) : Word64 := v.setWidth 64

/-- A Boolean result: 1 for true, 0 for false (30_encoding.md R95). -/
def boolResult (b : Bool) : Word64 := if b then 1 else 0

/-- The item operand `w_data[W-1:0]` (30_encoding.md R100). -/
def itemOperand (c : Config) (wData : Word64) : BitVec c.W := wData.setWidth c.W

/-- A tick-typed operand, the low `CW` bits of its bus (30_encoding.md R100). -/
def tickOperand (c : Config) (bus : Word64) : BitVec c.CW := bus.setWidth c.CW

/-- A period operand, the low 32 bits of its bus (30_encoding.md R100). -/
def periodOperand (bus : Word64) : BitVec 32 := bus.setWidth 32

/-- `gray(b) = b XOR (b >> 1)` (00_scope.md R15). -/
def gray {n : Nat} (b : BitVec n) : BitVec n := b ^^^ (b >>> 1)

/-- The exclusive or of `g` and its first `k` right shifts. -/
def xorShifts {n : Nat} (g : BitVec n) : Nat → BitVec n
  | 0 => g
  | k + 1 => xorShifts g k ^^^ (g >>> (k + 1))

/-- `bin(g)` (00_scope.md R15): bit `i` of the result is the exclusive or of the bits of `g` from `i` upward, which is
the rule's recurrence from the top bit down. -/
def bin {n : Nat} (g : BitVec n) : BitVec n := xorShifts g n

end Sys2Proof.Machine
end

