-- ==== Sys2Proof/Machine/Flags.lean ====
section
/-! DEFINITION. The block has no flags register (10_state.md R43). The conditions that its rules compute whenever they
need them: the status codes, empty, full and size in each view, the ready outputs, and when each wait may complete. -/

namespace Sys2Proof.Machine

/-- The 3-bit code of a status (30_encoding.md R97). -/
def Status.code : Status → StatusWord
  | .ok => 0
  | .full => 1
  | .empty => 2
  | .illegal => 3
  | .divZero => 4

namespace State

/-- `full_w`: full in the producer's view (40_producer_ops.md R121, R125). -/
def fullW (s : State) : Bool := s.head + 1 == s.tailW

/-- Empty in the producer's view (40_producer_ops.md R126). -/
def emptyW (s : State) : Bool := s.head == s.tailW

/-- The occupancy in the producer's view (40_producer_ops.md R127). -/
def sizeW (s : State) : BitVec s.cfg.A := s.head - s.tailW

/-- Full in the consumer's view (41_consumer_ops.md R152). -/
def fullR (s : State) : Bool := s.headR + 1 == s.tail

/-- `empty_r`: empty in the consumer's view (41_consumer_ops.md R151, R153). -/
def emptyR (s : State) : Bool := s.tail == s.headR

/-- The occupancy in the consumer's view (41_consumer_ops.md R154). -/
def sizeR (s : State) : BitVec s.cfg.A := s.headR - s.tail

/-- The true occupancy `head` minus `tail` modulo N (20_memory.md R67). -/
def size (s : State) : BitVec s.cfg.A := s.head - s.tail

/-- `w_ready` (30_encoding.md R91). -/
def wReady (s : State) : Bool := !s.wBusy

/-- `r_ready`: constant 1 (30_encoding.md R91). -/
def rReady (_s : State) : Bool := true

/-- `t_ready` (30_encoding.md R91). -/
def tReady (s : State) : Bool := !s.tBusy

/-- The count has reached a target: the literal unsigned comparison (42_counter_ops.md R176, 92_eei_decisions.md D29). -/
def reached (s : State) (target : Word64) : Bool := decide (target.toNat ≤ (zext64 s.count).toNat)

/-- WENG's step is enabled (40_producer_ops.md R124). -/
def wengEnabled (s : State) : Bool := s.wBusy && !s.fullW

/-- TENG's step is enabled (42_counter_ops.md R177). -/
def tengEnabled (s : State) : Bool := s.tBusy && s.reached s.tTarget

end State

end Sys2Proof.Machine
end

