-- ==== Sys2Proof/Machine/Ops.lean ====
section
/-! DEFINITION. The shared operations (00_scope.md R16): slot reads and writes, completion on each port, the gate of a
port that is not ready, the commit of a push and of a pop, the completion steps of the two waits, the unit steps of the
views and the tick, and reset. The block has no trap (60_exceptions.md R213): every failure is a completion with a
failure status, so `completeW`, `completeR` and `completeT` stand where another machine takes an exception, and there is
no return from one (R214). -/

namespace Sys2Proof.Machine

/-- `MemRead(i, 1)`: the item in slot `i`, or `none` where the slot holds no value (10_state.md R35). -/
def Memory.read {w : Nat} : Memory w → Nat → Option (BitVec w)
  | [], _ => none
  | (j, v) :: rest, i => if i = j then some v else Memory.read rest i

/-- `MemWrite(i, 1, v)`: slot `i` holds `v`; the list stays strictly rising. -/
def Memory.write {w : Nat} : Memory w → Nat → BitVec w → Memory w
  | [], i, v => [(i, v)]
  | (j, u) :: rest, i, v =>
    if i < j then (i, v) :: (j, u) :: rest
    else if i = j then (i, v) :: rest
    else (j, u) :: Memory.write rest i v

/-- The canonical form: slot indices strictly rising. No entry can equal what an unlisted slot reads as, since an
unlisted slot holds no value. -/
def Memory.wf {w : Nat} : Memory w → Bool
  | [] => true
  | [_] => true
  | (i, _) :: (j, v) :: rest => decide (i < j) && Memory.wf ((j, v) :: rest)

/-- What a step of the machine answers. -/
abbrev Result := Host.Outcome State Fault Refusal

namespace State

/-- The history with one more completion (40_producer_ops.md R120). -/
def recorded (s : State) (p : Port) (m : Mnemonic) (st : Status) (rd : Option Word64) : List Event :=
  s.history ++ [.completed { port := p, mnemonic := m, st := st, rd := rd }]

/-- `complete(W, st, rd)` (40_producer_ops.md R120); `rd = none` is `keep`. -/
def completeW (s : State) (m : Mnemonic) (st : Status) (rd : Option Word64) : State :=
  { s with
    wStatus := st.code
    wRdata := rd.getD s.wRdata
    wAck := true
    history := s.recorded .w m st rd }

/-- `complete(R, st, rd)` (41_consumer_ops.md R150). -/
def completeR (s : State) (m : Mnemonic) (st : Status) (rd : Option Word64) : State :=
  { s with
    rStatus := st.code
    rRdata := rd.getD s.rRdata
    rAck := true
    history := s.recorded .r m st rd }

/-- `complete(T, st, rd)` (42_counter_ops.md R170). -/
def completeT (s : State) (m : Mnemonic) (st : Status) (rd : Option Word64) : State :=
  { s with
    tStatus := st.code
    tRdata := rd.getD s.tRdata
    tAck := true
    history := s.recorded .t m st rd }

/-- The ack pulse of a port's last completion is over (10_state.md R34). DESIGN CHOICE (log entry 4). -/
def ackLow (s : State) : Port → State
  | .w => { s with wAck := false }
  | .r => { s with rAck := false }
  | .t => { s with tAck := false }

/-- Store at slot `head` and publish the next `head` in the same commit (40_producer_ops.md R121). -/
def pushItem (s : State) (item : BitVec s.cfg.W) : State :=
  { s with
    mem := s.mem.write s.head.toNat item
    head := s.head + 1
    headGray := gray (s.head + 1) }

/-- Release slot `tail` (41_consumer_ops.md R151). -/
def popItem (s : State) : State :=
  { s with
    tail := s.tail + 1
    tailGray := gray (s.tail + 1) }

/-- A PUSH_BLOCKING waits (40_producer_ops.md R123). That the wait leaves `w_ack` low is a DESIGN CHOICE (log entry 4). -/
def waitW (s : State) (item : BitVec s.cfg.W) : State :=
  { s with wBusy := true, wPdata := item, wAck := false }

/-- A SLEEP_UNTIL waits (42_counter_ops.md R176). That the wait leaves `t_ack` low is a DESIGN CHOICE (log entry 4). -/
def waitT (s : State) (target : Word64) : State :=
  { s with tBusy := true, tTarget := target, tAck := false }

/-- WENG's completion of a pending PUSH_BLOCKING (40_producer_ops.md R124). -/
def wengComplete (s : State) : State :=
  { s.pushItem s.wPdata with wBusy := false }.completeW .pushBlocking .ok none

/-- TENG's completion of a pending SLEEP_UNTIL (42_counter_ops.md R177). -/
def tengComplete (s : State) : State :=
  { s with tBusy := false }.completeT .sleepUntil .ok (some (zext64 s.count))

/-- SYNC_H's unit step (20_memory.md R65). -/
def syncHStep (s : State) : State := { s with headR := s.headR + 1 }

/-- SYNC_T's unit step (20_memory.md R65). -/
def syncTStep (s : State) : State := { s with tailW := s.tailW + 1 }

/-- One tick (42_counter_ops.md R179). -/
def tickStep (s : State) : State := { s with count := s.count + 1 }

/-- The reset event (70_reset_and_hazards.md R240): every register and slot as 10_state.md R48 says, pending commands
abandoned without a completion; the history stays. That the host's inputs stay is a DESIGN CHOICE (log entry 2). -/
def resetStep (s : State) : State :=
  { State.resetWith s.cfg with
    history := s.history ++ [.reset]
    wCmds := s.wCmds
    rCmds := s.rCmds
    tCmds := s.tCmds
    sched := s.sched }

end State

/-- A W command is issued only when `w_ready = 1`; otherwise nothing is issued (30_encoding.md R93). That this answers the
same state is DEDUCED (log entry 11). -/
def issueW (s : State) (meaning : State → Result) : Result :=
  if s.wReady then meaning s else .next s

/-- An R command is issued whenever it is presented: `r_ready` is constant 1 (30_encoding.md R91, R93). -/
def issueR (s : State) (meaning : State → Result) : Result :=
  if s.rReady then meaning s else .next s

/-- A T command is issued only when `t_ready = 1`; otherwise nothing is issued (30_encoding.md R93). -/
def issueT (s : State) (meaning : State → Result) : Result :=
  if s.tReady then meaning s else .next s

end Sys2Proof.Machine
end

