-- ==== Sys2Proof/Machine/Consumer.lean ====
section
/-! DEFINITION. The meanings of the R-port commands (41_consumer_ops.md). Each is a step of RREQ. -/

namespace Sys2Proof.Machine

/-- R_NOP (41_consumer_ops.md R155). -/
def execRNop (s : State) : Result :=
  issueR s fun s => .next (s.completeR .rNop .ok none)

/-- POP (41_consumer_ops.md R151). A slot that holds no value is a fault (10_state.md R35). -/
def execPop (s : State) : Result :=
  issueR s fun s =>
    if s.emptyR then
      .next (s.completeR .pop .empty none)
    else
      match s.mem.read s.tail.toNat with
      | some v => .next (s.popItem.completeR .pop .ok (some (zext64 v)))
      | none => .fault (.unwrittenSlot s.tail.toNat)

/-- R_FULL (41_consumer_ops.md R152). -/
def execRFull (s : State) : Result :=
  issueR s fun s => .next (s.completeR .rFull .ok (some (boolResult s.fullR)))

/-- R_EMPTY (41_consumer_ops.md R153). -/
def execREmpty (s : State) : Result :=
  issueR s fun s => .next (s.completeR .rEmpty .ok (some (boolResult s.emptyR)))

/-- R_SIZE (41_consumer_ops.md R154). -/
def execRSize (s : State) : Result :=
  issueR s fun s => .next (s.completeR .rSize .ok (some (zext64 s.sizeR)))

/-- The reserved R code 010 (41_consumer_ops.md R156). -/
def execRReserved010 (s : State) : Result :=
  issueR s fun s => .next (s.completeR .rReserved010 .illegal none)

/-- The reserved R code 110 (41_consumer_ops.md R156). -/
def execRReserved110 (s : State) : Result :=
  issueR s fun s => .next (s.completeR .rReserved110 .illegal none)

/-- The reserved R code 111 (41_consumer_ops.md R156). -/
def execRReserved111 (s : State) : Result :=
  issueR s fun s => .next (s.completeR .rReserved111 .illegal none)

end Sys2Proof.Machine
end

