-- ==== Sys2Proof/Machine/Counter.lean ====
section
/-! DEFINITION. The meanings of the T-port commands (42_counter_ops.md). Each is the issue step of TREQ. -/

namespace Sys2Proof.Machine

/-- T_NOP (42_counter_ops.md R171). -/
def execTNop (s : State) : Result :=
  issueT s fun s => .next (s.completeT .tNop .ok none)

/-- NOW (42_counter_ops.md R172). -/
def execNow (s : State) : Result :=
  issueT s fun s => .next (s.completeT .now .ok (some (zext64 s.count)))

/-- ELAPSED (42_counter_ops.md R173): the wrapping interval of its operands. -/
def execElapsed (tA tB : Word64) (s : State) : Result :=
  issueT s fun s =>
    .next (s.completeT .elapsed .ok (some (zext64 (tickOperand s.cfg tB - tickOperand s.cfg tA))))

/-- T2D (42_counter_ops.md R174): the product modulo 2^64. -/
def execT2d (tA tB : Word64) (s : State) : Result :=
  issueT s fun s =>
    .next (s.completeT .t2d .ok (some (zext64 (tickOperand s.cfg tA) * zext64 (periodOperand tB))))

/-- D2T (42_counter_ops.md R175): the floor quotient; all ones and DIV_ZERO where the period is 0. -/
def execD2t (tA tB : Word64) (s : State) : Result :=
  issueT s fun s =>
    if periodOperand tB = 0 then
      .next (s.completeT .d2t .divZero (some (BitVec.allOnes 64)))
    else
      .next (s.completeT .d2t .ok (some (tA / zext64 (periodOperand tB))))

/-- SLEEP_UNTIL, the issue step (42_counter_ops.md R176): completes at once, or waits. -/
def execSleepUntil (tA : Word64) (s : State) : Result :=
  issueT s fun s =>
    if s.reached tA then
      .next (s.completeT .sleepUntil .ok (some (zext64 s.count)))
    else
      .next (s.waitT tA)

/-- INIT (42_counter_ops.md R178). -/
def execInit (s : State) : Result :=
  issueT s fun s => .next ({ s with count := 0 }.completeT .init .ok none)

/-- The reserved T code 111 (42_counter_ops.md R180). -/
def execTReserved111 (s : State) : Result :=
  issueT s fun s => .next (s.completeT .tReserved111 .illegal none)

end Sys2Proof.Machine
end

