-- ==== Sys2Proof/Machine/Producer.lean ====
section
/-! DEFINITION. The meanings of the W-port commands (40_producer_ops.md). Each is the issue step of WREQ. -/

namespace Sys2Proof.Machine

/-- W_NOP (40_producer_ops.md R129). -/
def execWNop (s : State) : Result :=
  issueW s fun s => .next (s.completeW .wNop .ok none)

/-- PUSH (40_producer_ops.md R121): drop-new on full in the producer's view. -/
def execPush (wData : Word64) (s : State) : Result :=
  issueW s fun s =>
    if s.fullW then
      .next ({ s with ovf := s.ovf + 1 }.completeW .push .full none)
    else
      .next ((s.pushItem (itemOperand s.cfg wData)).completeW .push .ok none)

/-- PUSH_BLOCKING, the issue step (40_producer_ops.md R123): completes at once, or waits. -/
def execPushBlocking (wData : Word64) (s : State) : Result :=
  issueW s fun s =>
    if s.fullW then
      .next (s.waitW (itemOperand s.cfg wData))
    else
      .next ((s.pushItem (itemOperand s.cfg wData)).completeW .pushBlocking .ok none)

/-- W_FULL (40_producer_ops.md R125). -/
def execWFull (s : State) : Result :=
  issueW s fun s => .next (s.completeW .wFull .ok (some (boolResult s.fullW)))

/-- W_EMPTY (40_producer_ops.md R126). -/
def execWEmpty (s : State) : Result :=
  issueW s fun s => .next (s.completeW .wEmpty .ok (some (boolResult s.emptyW)))

/-- W_SIZE (40_producer_ops.md R127). -/
def execWSize (s : State) : Result :=
  issueW s fun s => .next (s.completeW .wSize .ok (some (zext64 s.sizeW)))

/-- W_OVF (40_producer_ops.md R128): the read clears nothing. -/
def execWOvf (s : State) : Result :=
  issueW s fun s => .next (s.completeW .wOvf .ok (some (zext64 s.ovf)))

/-- The reserved W code 111 (40_producer_ops.md R130). -/
def execWReserved111 (s : State) : Result :=
  issueW s fun s => .next (s.completeW .wReserved111 .illegal none)

/-- A command word whose port field is 11: the model has no step for it (30_encoding.md R99 item 2). -/
def execNoPort (_op : BitVec 3) (_s : State) : Result :=
  .refused .noPort

end Sys2Proof.Machine
end

