-- ==== Sys2Proof/Machine/Dispatch.lean ====
section
/-! DEFINITION. The dispatch: one arm per command. -/

namespace Sys2Proof.Machine

def exec (i : Instr) (s : State) : Host.Outcome State Fault Refusal :=
  match i with
  | .wNop => Sys2Proof.Machine.execWNop s
  | .push item => Sys2Proof.Machine.execPush item s
  | .pushBlocking item => Sys2Proof.Machine.execPushBlocking item s
  | .wFull => Sys2Proof.Machine.execWFull s
  | .wSize => Sys2Proof.Machine.execWSize s
  | .wEmpty => Sys2Proof.Machine.execWEmpty s
  | .wOvf => Sys2Proof.Machine.execWOvf s
  | .wReserved111 => Sys2Proof.Machine.execWReserved111 s
  | .rNop => Sys2Proof.Machine.execRNop s
  | .pop => Sys2Proof.Machine.execPop s
  | .rReserved010 => Sys2Proof.Machine.execRReserved010 s
  | .rFull => Sys2Proof.Machine.execRFull s
  | .rSize => Sys2Proof.Machine.execRSize s
  | .rEmpty => Sys2Proof.Machine.execREmpty s
  | .rReserved110 => Sys2Proof.Machine.execRReserved110 s
  | .rReserved111 => Sys2Proof.Machine.execRReserved111 s
  | .tNop => Sys2Proof.Machine.execTNop s
  | .now => Sys2Proof.Machine.execNow s
  | .elapsed start now => Sys2Proof.Machine.execElapsed start now s
  | .t2d ticks period => Sys2Proof.Machine.execT2d ticks period s
  | .d2t duration period => Sys2Proof.Machine.execD2t duration period s
  | .sleepUntil target => Sys2Proof.Machine.execSleepUntil target s
  | .init => Sys2Proof.Machine.execInit s
  | .tReserved111 => Sys2Proof.Machine.execTReserved111 s
  | .noPort op => Sys2Proof.Machine.execNoPort op s

end Sys2Proof.Machine
end

