-- ==== Sys2Proof/Machine/Agents.lean ====
section
/-! DEFINITION. The agents' steps (10_state.md R45): what each requester fetches and issues, and when each agent's step
is enabled. An agent whose step is not enabled changes nothing (00_scope.md R18). DEDUCED (log entry 3). -/

namespace Sys2Proof.Machine

/-- The commands a port's requester still presents. -/
def State.presented (s : State) : Port → List Cmd
  | .w => s.wCmds
  | .r => s.rCmds
  | .t => s.tCmds

/-- The state with other commands presented on a port. -/
def State.withPresented (s : State) (p : Port) (cs : List Cmd) : State :=
  match p with
  | .w => { s with wCmds := cs }
  | .r => { s with rCmds := cs }
  | .t => { s with tCmds := cs }

/-- `P_ready` (30_encoding.md R91). -/
def State.ready (s : State) : Port → Bool
  | .w => s.wReady
  | .r => s.rReady
  | .t => s.tReady

/-- A requester's step (30_encoding.md R93): when its port is ready, the port takes the next presented command, which is
decoded and runs. While the port is not ready nothing is issued and the command stays presented. -/
def requesterStep (p : Port) (s : State) : Result :=
  match s.presented p with
  | [] => .next s
  | c :: rest =>
    if s.ready p then
      match decode c with
      | .error .noPort => .refused .noPort
      | .ok i => if i.port? = some p then exec i (s.withPresented p rest) else .refused .foreignPort
    else .next s

/-- Whether an agent's step is enabled (10_state.md R45). -/
def enabled : Agent → State → Bool
  | .wreq, s => s.wReady && !s.wCmds.isEmpty
  | .weng, s => s.wengEnabled
  | .rreq, s => s.rReady && !s.rCmds.isEmpty
  | .treq, s => s.tReady && !s.tCmds.isEmpty
  | .teng, s => s.tengEnabled
  | .syncH, s => s.headR != s.head
  | .syncT, s => s.tailW != s.tail
  | .tick, s => !s.tengEnabled
  | .rst, _ => true

/-- One step of one agent, or nothing where it is not enabled. -/
def runAgent (a : Agent) (s : State) : Result :=
  match a with
  | .wreq => requesterStep .w s
  | .weng => if s.wengEnabled then .next s.wengComplete else .next s
  | .rreq => requesterStep .r s
  | .treq => requesterStep .t s
  | .teng => if s.tengEnabled then .next s.tengComplete else .next s
  | .syncH => if s.headR = s.head then .next s else .next s.syncHStep
  | .syncT => if s.tailW = s.tail then .next s else .next s.syncTStep
  | .tick => if s.tengEnabled then .next s else .next s.tickStep
  | .rst => .next s.resetStep

end Sys2Proof.Machine
end

