-- ==== Sys2Proof/Machine/Cycle.lean ====
section
/-! DEFINITION. The schedule. A slot is one agent's step, the end of an ack pulse, a change of what a requester presents,
or a clock edge of one domain, which expands into agents' steps in the order the spec gives for events at one edge
(42_counter_ops.md R181, 60_exceptions.md R217): first the command or the wait's completion, then the view's shift or the
tick. No clock is kept (00_scope.md R3); an edge is only a fixed order of steps of one domain with no other step between.
DEDUCED (log entry 13). -/

namespace Sys2Proof.Machine

/-- What a slot expands into. -/
inductive Act where
  | agent (a : Agent)
  | quiet (p : Port)
  | present (p : Port) (cs : List Cmd)
deriving DecidableEq, Repr

/-- One act: an agent's step, the fall of a port's ack at an edge with no completion (10_state.md R34), or the host
presenting other commands on a port, which no part of the block reads until one is issued (60_exceptions.md R224). -/
def runAct (a : Act) (s : State) : Result :=
  match a with
  | .agent a => runAgent a s
  | .quiet p => .next (s.ackLow p)
  | .present p cs => .next (s.withPresented p cs)

/-- Acts one after another, stopping at the first fault or refusal. -/
def runActs : List Act → State → Result
  | [], s => .next s
  | a :: rest, s =>
    match runAct a s with
    | .next s' => runActs rest s'
    | .fault f => .fault f
    | .refused r => .refused r

/-- The next presented T command is an INIT (42_counter_ops.md R181 item 2). -/
def State.nextIsInit (s : State) : Bool :=
  match s.tCmds with
  | [] => false
  | c :: _ =>
    match decode c with
    | .ok .init => true
    | _ => false

/-- Port W at a `wclk` edge: a pending PUSH_BLOCKING completes if it may, else a valid command is issued
(30_encoding.md R93, R94). -/
def wPortAct (valid : Bool) (s : State) : Act :=
  if s.wengEnabled then .agent .weng
  else if valid && enabled .wreq s then .agent .wreq
  else .quiet .w

/-- Port R at an `rclk` edge. -/
def rPortAct (valid : Bool) (s : State) : Act :=
  if valid && enabled .rreq s then .agent .rreq else .quiet .r

/-- Port T at a `tclk` edge: the comparison of a pending SLEEP_UNTIL is made on the count before the edge's tick
(42_counter_ops.md R177, R181). -/
def tPortAct (valid : Bool) (s : State) : Act :=
  if s.tengEnabled then .agent .teng
  else if valid && enabled .treq s then .agent .treq
  else .quiet .t

/-- The tick of a `tclk` edge is lost where an INIT is issued at that edge (42_counter_ops.md R178, R179, R181). -/
def tickAct (valid tick : Bool) (s : State) : List Act :=
  if tick && !(valid && enabled .treq s && s.nextIsInit) then [.agent .tick] else []

/-- The acts of a schedule slot in a state. -/
def Slot.acts (x : Slot) (s : State) : List Act :=
  match x with
  | .agent a => [.agent a]
  | .quiet p => [.quiet p]
  | .present p cs => [.present p cs]
  | .sync =>
    List.replicate (s.head - s.headR).toNat (.agent .syncH) ++ List.replicate (s.tail - s.tailW).toNat (.agent .syncT)
  | .wEdge valid shift => wPortAct valid s :: List.replicate shift (.agent .syncT)
  | .rEdge valid shift => rPortAct valid s :: List.replicate shift (.agent .syncH)
  | .tEdge valid tick => tPortAct valid s :: tickAct valid tick s

/-- One schedule slot. -/
def runSlot (x : Slot) (s : State) : Result := runActs (x.acts s) s

/-- The schedule directives of 30_encoding.md R102. -/
inductive Directive where
  | syncH (n : Nat)
  | syncT (n : Nat)
  | sync
  | tick (n : Nat)
  | reset
deriving DecidableEq, Repr

/-- The slots a directive names (30_encoding.md R102). R102 does not say what `.sync_h n`, `.sync_t n` and `.tick n` do
where the named step stops being enabled before `n` of them, as where a pending SLEEP_UNTIL reaches its target midway.
Here a directive names its own `n` slots and no step of WENG or TENG, and a slot whose step is not enabled passes, so
that fewer than `n` events happen; a wait completes at a slot of its own. DESIGN CHOICE (log entry 19). -/
def Directive.slots : Directive → List Slot
  | .syncH n => List.replicate n (.agent .syncH)
  | .syncT n => List.replicate n (.agent .syncT)
  | .sync => [.sync]
  | .tick n => List.replicate n (.agent .tick)
  | .reset => [.agent .rst]

end Sys2Proof.Machine
end

