-- ==== Sys2Proof/Machine/Elaborate.lean ====
section
/-! DEFINITION. Elaboration: the configuration check of 00_scope.md R12 on the capacity as a depth, rejecting by name. -/

namespace Sys2Proof.Machine

/-- Parameters as they are given before the check: the capacity as a depth in slots (00_scope.md R12). -/
structure RawConfig where
  depth : Nat
  W     : Nat
  S     : Nat
  CW    : Nat
deriving DecidableEq, Repr

/-- Why elaboration rejects a configuration (00_scope.md R12). -/
inductive ConfigReject where
  /-- "Misconfiguration: non-power-of-two capacity" (60_exceptions.md R210). -/
  | misconfiguration
  /-- A parameter outside its range (00_scope.md R6 to R9). -/
  | outOfRange
deriving DecidableEq, Repr

/-- Elaboration (00_scope.md R12): the admitted configuration, or the reason no block is built. -/
def elaborate (r : RawConfig) : Except ConfigReject Config :=
  if 2 ^ r.depth.log2 = r.depth then
    if h : Config.admits r.depth.log2 r.W r.S r.CW = true then
      .ok { A := r.depth.log2, W := r.W, S := r.S, CW := r.CW, ok := h }
    else .error .outOfRange
  else .error .misconfiguration

end Sys2Proof.Machine
end

