-- ==== Sys2Proof/Machine/Sync.lean ====
section
/-! DEFINITION. The synchronizer chain of the cycle level (10_state.md R32, R37, 00_scope.md R17): the mechanism that
20_memory.md R65 replaces by one view register in a model's state. It is not part of `step`; it is here so that R65's
replacement can be stated about the mechanism itself. -/

namespace Sys2Proof.Machine

/-- The stages of one chain, the first stage first. -/
abbrev SyncChain (n : Nat) := List (BitVec n)

/-- A chain of `S` stages after reset: every stage 0 (10_state.md R48). -/
def SyncChain.reset (n S : Nat) : SyncChain n := List.replicate S 0

/-- One edge: the first stage samples the Gray register, every other stage takes the one before it (10_state.md R32). -/
def SyncChain.edge {n : Nat} (c : SyncChain n) (sample : BitVec n) : SyncChain n := (sample :: c).dropLast

/-- Edges at which the first stage captures the given samples, in order. -/
def SyncChain.edges {n : Nat} (c : SyncChain n) (samples : List (BitVec n)) : SyncChain n :=
  samples.foldl SyncChain.edge c

/-- The view: the index recovered from the last stage (00_scope.md R17). -/
def SyncChain.view {n : Nat} (c : SyncChain n) : BitVec n := bin (c.getLastD 0)

end Sys2Proof.Machine
end

