-- ==== Sys2Proof/Machine/Step.lean ====
section
/-! DEFINITION. One step of the machine: the next slot of the schedule. With an empty schedule no agent acts and nothing
changes (60_exceptions.md R223: a domain whose clock is stopped takes no steps and loses no state). -/

namespace Sys2Proof.Machine

/-- The step (00_scope.md R18). -/
def step (s : State) : Host.Outcome State Fault Refusal :=
  match s.sched with
  | [] => .next s
  | x :: rest => runSlot x { s with sched := rest }

/-- The state in which the very next step issues the command of a bit pattern of the opcode table: its port's requester
presents it first, and the schedule lets that requester act first. A pattern that names no port is presented by WREQ,
and refused. -/
def State.withFetchWord (s : State) (nbits w : Nat) : State :=
  let c := Cmd.ofTable nbits w
  match (portField c.word).toNat with
  | 1 => { s with rCmds := c :: s.rCmds, sched := .agent .rreq :: s.sched }
  | 2 => { s with tCmds := c :: s.tCmds, sched := .agent .treq :: s.sched }
  | _ => { s with wCmds := c :: s.wCmds, sched := .agent .wreq :: s.sched }

end Sys2Proof.Machine
end

