-- ==== Sys2Proof/Safety.lean ====
section
/-! DEFINITION. What counts as a safe run: the occupancy distances and the invariant of 20_memory.md R67 to R71 and
10_state.md R49, the abstract queue of R70, the observation of a finished run (70_reset_and_hazards.md R260), quiescence
(R263), and weak fairness and hangs over infinite runs (R262, R261). -/

namespace Sys2Proof.Machine

/-- `d1 = tail ⊖ tail_w` (20_memory.md R67). -/
def State.d1 (s : State) : Nat := (s.tail - s.tailW).toNat

/-- `d2 = head_r ⊖ tail` (20_memory.md R67). -/
def State.d2 (s : State) : Nat := (s.headR - s.tail).toNat

/-- `d3 = head ⊖ head_r` (20_memory.md R67). -/
def State.d3 (s : State) : Nat := (s.head - s.headR).toNat

/-- The `k`-th slot of the occupied arc, counted from `tail` (20_memory.md R68). -/
def State.arcSlot (s : State) (k : Nat) : Nat := (s.tail + BitVec.ofNat s.cfg.A k).toNat

/-- The `k`-th slot, counted from `tail_w`, of those whose release the producer has not yet seen (20_memory.md R69). -/
def State.unseenSlot (s : State) (k : Nat) : Nat := (s.tailW + BitVec.ofNat s.cfg.A k).toNat

/-- The answer is a next state in which one push has stored its item at the old `head`, and every slot in use, on the
occupied arc or released but not yet seen by the producer, reads as before (20_memory.md R69). -/
def State.pushesBesideSlotsInUse (s : State) (r : Result) : Prop :=
  ∃ t : State, r = .next t ∧ t.head.toNat = (s.head.toNat + 1) % s.cfg.N ∧ (t.mem.read s.head.toNat).isSome = true ∧
    (∀ k < s.size.toNat, (t.mem.read (s.arcSlot k)).map zext64 = (s.mem.read (s.arcSlot k)).map zext64) ∧
    (∀ k < s.d1, (t.mem.read (s.unseenSlot k)).map zext64 = (s.mem.read (s.unseenSlot k)).map zext64)

/-- The abstract queue: the items on the occupied arc, the oldest first, zero-extended; `none` for a slot that holds no
value (20_memory.md R68, R70). -/
def State.queue (s : State) : List (Option Word64) :=
  (List.range s.size.toNat).map fun k => (s.mem.read (s.arcSlot k)).map zext64

/-- A completion of a successful push (40_producer_ops.md R121, R123, R124). -/
def Completion.isPush (c : Completion) : Bool :=
  c.st == .ok && (c.mnemonic == .push || c.mnemonic == .pushBlocking)

/-- A completion of a successful POP (41_consumer_ops.md R151). -/
def Completion.isPop (c : Completion) : Bool := c.st == .ok && c.mnemonic == .pop

/-- How many completions of a kind the history holds since the last reset (20_memory.md R71). -/
def countSinceReset (kind : Completion → Bool) (h : List Event) : Nat :=
  h.foldl (fun n e =>
    match e with
    | .reset => 0
    | .completed c => if kind c then n + 1 else n) 0

/-- `P` of 20_memory.md R71: successful pushes since reset. -/
def State.pushes (s : State) : Nat := countSinceReset Completion.isPush s.history

/-- `Q` of 20_memory.md R71: successful POPs since reset. -/
def State.pops (s : State) : Nat := countSinceReset Completion.isPop s.history

/-- What every state reachable from reset satisfies. -/
structure State.Inv (s : State) : Prop where
  /-- 10_state.md R31, R49. -/
  headGray : s.headGray = gray s.head
  /-- 10_state.md R36, R49. -/
  tailGray : s.tailGray = gray s.tail
  /-- 20_memory.md R67: the four indices lie in cyclic order within one lap. -/
  order : s.d1 + s.d2 + s.d3 ≤ s.cfg.N - 1
  /-- The slot storage keeps its canonical form. -/
  memWf : s.mem.wf = true
  /-- Only slots of the block are listed (20_memory.md R60). -/
  memRange : ∀ cell ∈ s.mem, cell.1 < s.cfg.N
  /-- 20_memory.md R68: every slot of the occupied arc holds an item. -/
  arc : ∀ k < s.size.toNat, (s.mem.read (s.arcSlot k)).isSome = true
  /-- 20_memory.md R71: `P = Q + size`. -/
  conserve : s.pushes = s.pops + s.size.toNat
  /-- 20_memory.md R79: the next push writes slot `P mod N`. -/
  headCounts : s.head.toNat = s.pushes % s.cfg.N
  /-- 30_encoding.md R97: the statuses the W port produces are OK, FULL and ILLEGAL. -/
  wStatus : s.wStatus = 0 ∨ s.wStatus = 1 ∨ s.wStatus = 3
  /-- The statuses the R port produces are OK, EMPTY and ILLEGAL. -/
  rStatus : s.rStatus = 0 ∨ s.rStatus = 2 ∨ s.rStatus = 3
  /-- The statuses the T port produces are OK, ILLEGAL and DIV_ZERO. -/
  tStatus : s.tStatus = 0 ∨ s.tStatus = 3 ∨ s.tStatus = 4

/-- The completions of one port, in order (70_reset_and_hazards.md R260). -/
def completionsOf (p : Port) (h : List Event) : List Completion :=
  h.filterMap fun e =>
    match e with
    | .reset => none
    | .completed c => if c.port = p then some c else none

/-- The observation of a finished run (70_reset_and_hazards.md R260). -/
structure Observation where
  wDone : List Completion
  rDone : List Completion
  tDone : List Completion
  head  : Nat
  tail  : Nat
  ovf   : Nat
  count : Nat
  arc   : List (Option Word64)
deriving DecidableEq, Repr

/-- What a run is observed by when it is finished (70_reset_and_hazards.md R260). -/
def State.observe (s : State) : Observation :=
  { wDone := completionsOf .w s.history
    rDone := completionsOf .r s.history
    tDone := completionsOf .t s.history
    head := s.head.toNat
    tail := s.tail.toNat
    ovf := s.ovf.toNat
    count := s.count.toNat
    arc := s.queue }

/-- The slot belongs to the host's program: a reset, or commands that a requester is still to present. -/
def Slot.hostPending : Slot → Bool
  | .agent .rst => true
  | .present _ cs => !cs.isEmpty
  | _ => false

/-- A finished run (70_reset_and_hazards.md R260): every command issued, presented or still to come, no wait pending, no
reset to come. -/
def State.finished (s : State) : Bool :=
  s.wCmds.isEmpty && s.rCmds.isEmpty && s.tCmds.isEmpty && !s.wBusy && !s.tBusy && !s.sched.any Slot.hostPending

/-- A quiescent point (70_reset_and_hazards.md R263): no wait pending, both views exact, no command about to be issued.
R263 does not say what "about to issue a command" means. Here it is that a command is presented now; a `present` slot that
is still in the schedule does not count, though it does for `State.finished`. DESIGN CHOICE (log entry 21). -/
def State.quiescent (s : State) : Bool :=
  !s.wBusy && !s.tBusy && s.headR == s.head && s.tailW == s.tail
    && s.wCmds.isEmpty && s.rCmds.isEmpty && s.tCmds.isEmpty

/-- The results of the successful POPs a history records, in order (20_memory.md R70). -/
def popResults (h : List Event) : List (Option Word64) :=
  h.filterMap fun e =>
    match e with
    | .reset => none
    | .completed c => if c.isPop then some c.rd else none

/-- The item an act accepts into the FIFO, if any, zero-extended: that of a PUSH or PUSH_BLOCKING issued while not full
in the producer's view (40_producer_ops.md R121, R123), or the latched item WENG stores (R124). -/
def State.accepts (s : State) (a : Act) : List Word64 :=
  match a with
  | .agent .wreq =>
    match s.wCmds with
    | [] => []
    | c :: _ =>
      if s.wBusy || s.fullW then []
      else
        match decode c with
        | .ok (.push d) => [zext64 (itemOperand s.cfg d)]
        | .ok (.pushBlocking d) => [zext64 (itemOperand s.cfg d)]
        | _ => []
  | .agent .weng => if s.wengEnabled then [zext64 s.wPdata] else []
  | _ => []

/-- The items a list of acts accepts, in order (20_memory.md R70). -/
def acceptedDuring : List Act → State → List Word64
  | [], _ => []
  | a :: rest, s =>
    s.accepts a ++
      match runAct a s with
      | .next u => acceptedDuring rest u
      | _ => []

/-- How many tick events a list of acts takes (42_counter_ops.md R179, R182). -/
def ticksDuring : List Act → State → Nat
  | [], _ => 0
  | a :: rest, s =>
    (if a = .agent .tick ∧ s.tengEnabled = false then 1 else 0) +
      match runAct a s with
      | .next u => ticksDuring rest u
      | _ => 0

/-- How many INIT commands a list of acts issues (42_counter_ops.md R178, R182). -/
def initsDuring : List Act → State → Nat
  | [], _ => 0
  | a :: rest, s =>
    (if a = .agent .treq ∧ enabled .treq s = true ∧ s.nextIsInit = true then 1 else 0) +
      match runAct a s with
      | .next u => initsDuring rest u
      | _ => 0

/-- Commands executed one after another, stopping at the first fault or refusal (40_producer_ops.md R122). -/
def execAll : List Instr → State → Result
  | [], s => .next s
  | i :: rest, s =>
    match exec i s with
    | .next u => execAll rest u
    | .fault f => .fault f
    | .refused r => .refused r

/-- A block just reset, and a host with given inputs: commands on each port and a schedule. -/
def State.started (c : Config) (wCmds rCmds tCmds : List Cmd) (sched : List Slot) : State :=
  { State.resetWith c with wCmds := wCmds, rCmds := rCmds, tCmds := tCmds, sched := sched }

/-- A state reachable from reset: some configuration, some inputs of the host, some number of steps (20_memory.md R67). -/
def State.reachable (t : State) : Prop :=
  ∃ c wCmds rCmds tCmds sched n, Sys2Proof.core.run n (State.started c wCmds rCmds tCmds sched) = .next t

/-- An infinite run: `act n` is the `n`-th step, an agent's, or the host's that presents more commands, so that a
requester may issue without end (00_scope.md R18, 60_exceptions.md R224). -/
structure InfiniteRun where
  state : Nat → State
  act   : Nat → Act
  moves : ∀ n, runAct (act n) (state n) = .next (state (n + 1))

/-- Weak fairness of an agent in a run: a step of it that stays enabled is eventually taken (70_reset_and_hazards.md
R262). -/
def InfiniteRun.weaklyFair (r : InfiniteRun) (a : Agent) : Prop :=
  ∀ n, (∀ m, n ≤ m → enabled a (r.state m) = true) → ∃ m, n ≤ m ∧ r.act m = .agent a

/-- The premise of 70_reset_and_hazards.md R262 item 1: the synchronizers and the engines are weakly fair. -/
def InfiniteRun.fair (r : InfiniteRun) : Prop :=
  r.weaklyFair .syncH ∧ r.weaklyFair .syncT ∧ r.weaklyFair .weng ∧ r.weaklyFair .teng

/-- The premise of 70_reset_and_hazards.md R262 item 2: tick events keep occurring. -/
def InfiniteRun.ticksKeepOccurring (r : InfiniteRun) : Prop :=
  ∀ n, ∃ m, n ≤ m ∧ r.act m = .agent .tick ∧ enabled .tick (r.state m) = true

/-- The premise of 70_reset_and_hazards.md R262 item 3: RREQ keeps issuing POP. -/
def InfiniteRun.popsKeepBeingIssued (r : InfiniteRun) : Prop :=
  ∀ n, ∃ m, n ≤ m ∧ r.act m = .agent .rreq ∧ ∃ c rest, (r.state m).rCmds = c :: rest ∧ decode c = .ok .pop

/-- The three clocks (10_state.md R30). -/
inductive Clock where
  | wclk
  | rclk
  | tclk
deriving DecidableEq, Repr

/-- The clock of a port (30_encoding.md R91). -/
def Port.clock : Port → Clock
  | .w => .wclk
  | .r => .rclk
  | .t => .tclk

/-- The clock at whose edges an agent's step happens (10_state.md R45, 42_counter_ops.md R179); reset is asserted
asynchronously (70_reset_and_hazards.md R241). -/
def Agent.clock? : Agent → Option Clock
  | .wreq | .weng | .syncT => some .wclk
  | .rreq | .syncH => some .rclk
  | .treq | .teng | .tick => some .tclk
  | .rst => none

/-- The clock at whose edge an act happens; what the host presents needs none. -/
def Act.clock? : Act → Option Clock
  | .agent a => a.clock?
  | .quiet p => some (Port.clock p)
  | .present _ _ => none

/-- A clock is stopped in a run: from some step on, its domain takes no steps (60_exceptions.md R223). -/
def InfiniteRun.stops (r : InfiniteRun) (c : Clock) : Prop :=
  ∃ n, ∀ m, n ≤ m → (r.act m).clock? ≠ some c

/-- A run is weakly fair to an agent while the agent's clock keeps running (70_reset_and_hazards.md R262 item 1). -/
def InfiniteRun.fairWhileClocked (r : InfiniteRun) (a : Agent) : Prop :=
  (∃ c, a.clock? = some c ∧ r.stops c) ∨ r.weaklyFair a

/-- A pending wait that never completes and is not abandoned: from some step on its port is busy at every step, where a
completion, and a reset, would free it. -/
def InfiniteRun.waitsForever (r : InfiniteRun) : Prop :=
  ∃ n, (∀ m, n ≤ m → (r.state m).wBusy = true) ∨ (∀ m, n ≤ m → (r.state m).tBusy = true)

/-- A hang (70_reset_and_hazards.md R261): an infinite, weakly fair run in which some pending wait never completes. The
fairness of the synchronizers and the engines is asked while their clocks run, as R262 item 1 ties it to them, so a wait
whose unblocking clock is stopped is a hang too, as R261 lists it. DEDUCED (log entry 20). -/
def InfiniteRun.hangs (r : InfiniteRun) : Prop :=
  (r.fairWhileClocked .syncH ∧ r.fairWhileClocked .syncT ∧ r.fairWhileClocked .weng ∧ r.fairWhileClocked .teng) ∧
    r.waitsForever

end Sys2Proof.Machine
end

