-- ==== Sys2Proof/Certificates/Slice0/Obligations.lean ====
section
/-! DEFINITION. The statements for the provers. Each says in its docstring which rule of spec/ it formalises. Next states
are written out field by field, so a statement of a result is also the frame: every field not named is unchanged. -/

open Sys2Proof Sys2Proof.Machine

/-! ### Reset and elaboration -/

/-- 10_state.md R48: the value of every piece of state after reset, in every configuration. -/
def Obligations.ResetGivesEveryStateItsResetValue : Prop :=
  ∀ c : Config, ∃ s : State, State.resetWith c = s ∧ s.cfg = c ∧
    s.head = 0 ∧ s.headGray = 0 ∧ s.tailW = 0 ∧ s.ovf = 0 ∧
    s.wBusy = false ∧ s.wAck = false ∧ s.wPdata = 0 ∧ s.wStatus = 0 ∧ s.wRdata = 0 ∧
    (∀ i, s.mem.read i = none) ∧
    s.tail = 0 ∧ s.tailGray = 0 ∧ s.headR = 0 ∧
    s.rAck = false ∧ s.rStatus = 0 ∧ s.rRdata = 0 ∧
    s.count = 0 ∧ s.tBusy = false ∧ s.tAck = false ∧ s.tStatus = 0 ∧ s.tRdata = 0 ∧ s.tTarget = 0

/-- 70_reset_and_hazards.md R240: one step of RST puts every register and slot at its reset value, abandons what is
pending with no completion, and keeps the completions already recorded. That the host's inputs stay as they are is the
model's choice (log entries 2 and 5). -/
def Obligations.ResetEventClearsTheBlockAndKeepsTheHistory : Prop :=
  ∀ s : State, ∃ t : State, runAgent .rst s = .next t ∧ t.cfg = s.cfg ∧
    t.head = 0 ∧ t.headGray = 0 ∧ t.tailW = 0 ∧ t.ovf = 0 ∧
    t.wBusy = false ∧ t.wAck = false ∧ t.wPdata = 0 ∧ t.wStatus = 0 ∧ t.wRdata = 0 ∧
    (∀ i, t.mem.read i = none) ∧
    t.tail = 0 ∧ t.tailGray = 0 ∧ t.headR = 0 ∧
    t.rAck = false ∧ t.rStatus = 0 ∧ t.rRdata = 0 ∧
    t.count = 0 ∧ t.tBusy = false ∧ t.tAck = false ∧ t.tStatus = 0 ∧ t.tRdata = 0 ∧ t.tTarget = 0 ∧
    (∀ p, completionsOf p t.history = completionsOf p s.history) ∧
    t.wCmds = s.wCmds ∧ t.rCmds = s.rCmds ∧ t.tCmds = s.tCmds ∧ t.sched = s.sched

/-- 00_scope.md R12: elaboration admits exactly the capacities that are a power of two with exponent at most 32 and the
parameters in their ranges, with the parameters given, and rejects a depth that is no power of two as the source's
Misconfiguration. -/
def Obligations.ElaborationAdmitsExactlyTheLegalConfigurations : Prop :=
  ∀ r : RawConfig,
    ((∃ c, elaborate r = .ok c) ↔
      (∃ k, k ≤ 32 ∧ r.depth = 2 ^ k) ∧ 1 ≤ r.W ∧ r.W ≤ 64 ∧ 2 ≤ r.S ∧ 1 ≤ r.CW ∧ r.CW ≤ 64) ∧
    (∀ c, elaborate r = .ok c → c.N = r.depth ∧ c.W = r.W ∧ c.S = r.S ∧ c.CW = r.CW) ∧
    ((∀ k, r.depth ≠ 2 ^ k) → elaborate r = .error .misconfiguration)

/-! ### Command words -/

/-- 30_encoding.md R98: every command word of the table's rows, written out from it, decodes to its command, with the
operands R100 names; the word 11000 is rejected (R99). -/
def Obligations.DecodedWordsOfEachPort : Prop :=
  ∀ d a b : Word64,
    decode ⟨0b00000#5, d, a, b⟩ = .ok .wNop ∧
    decode ⟨0b00001#5, d, a, b⟩ = .ok (.push d) ∧
    decode ⟨0b00010#5, d, a, b⟩ = .ok (.pushBlocking d) ∧
    decode ⟨0b00011#5, d, a, b⟩ = .ok .wFull ∧
    decode ⟨0b00100#5, d, a, b⟩ = .ok .wSize ∧
    decode ⟨0b00101#5, d, a, b⟩ = .ok .wEmpty ∧
    decode ⟨0b00110#5, d, a, b⟩ = .ok .wOvf ∧
    decode ⟨0b00111#5, d, a, b⟩ = .ok .wReserved111 ∧
    decode ⟨0b01000#5, d, a, b⟩ = .ok .rNop ∧
    decode ⟨0b01001#5, d, a, b⟩ = .ok .pop ∧
    decode ⟨0b01010#5, d, a, b⟩ = .ok .rReserved010 ∧
    decode ⟨0b01011#5, d, a, b⟩ = .ok .rFull ∧
    decode ⟨0b01100#5, d, a, b⟩ = .ok .rSize ∧
    decode ⟨0b01101#5, d, a, b⟩ = .ok .rEmpty ∧
    decode ⟨0b01110#5, d, a, b⟩ = .ok .rReserved110 ∧
    decode ⟨0b01111#5, d, a, b⟩ = .ok .rReserved111 ∧
    decode ⟨0b10000#5, d, a, b⟩ = .ok .tNop ∧
    decode ⟨0b10001#5, d, a, b⟩ = .ok .now ∧
    decode ⟨0b10010#5, d, a, b⟩ = .ok (.elapsed a b) ∧
    decode ⟨0b10011#5, d, a, b⟩ = .ok (.t2d a b) ∧
    decode ⟨0b10100#5, d, a, b⟩ = .ok (.d2t a b) ∧
    decode ⟨0b10101#5, d, a, b⟩ = .ok (.sleepUntil a) ∧
    decode ⟨0b10110#5, d, a, b⟩ = .ok .init ∧
    decode ⟨0b10111#5, d, a, b⟩ = .ok .tReserved111 ∧
    decode ⟨0b11000#5, d, a, b⟩ = .error .noPort

/-- 30_encoding.md R96, R98, R99, R100: decoding and encoding agree. Every well-formed command is what its encoding
decodes to; whatever the decoder reads has the command word it was read from and is what its own encoding decodes to;
and the decoder rejects exactly the words whose port field is 11. -/
def Obligations.DecodeAndEncodeAgree : Prop :=
  (∀ (c : Config) (i : Instr), wellFormed c i = true → decode (encode i) = .ok i) ∧
  (∀ (cmd : Cmd) (i : Instr), decode cmd = .ok i → (encode i).word = cmd.word ∧ decode (encode i) = .ok i) ∧
  (∀ cmd : Cmd, decode cmd = .error .noPort ↔ cmd.word.toNat / 8 = 3) ∧
  (∀ (cmd cmd' : Cmd) (i : Instr), decode cmd = .ok i → decode cmd' = .ok i → cmd.word = cmd'.word)

/-- 30_encoding.md R99 item 2: a command word that names no port has no step: it is refused at the decoder, whichever
requester presents it, and the refusal is by name. -/
def Obligations.NoPortWordsAreRefused : Prop :=
  (∀ (op : BitVec 3) (s : State), exec (.noPort op) s = .refused .noPort) ∧
  (∀ (op : BitVec 3) (d a b : Word64), decode ⟨0b11#2 ++ op, d, a, b⟩ = .error .noPort) ∧
  (∀ (s : State) (c : Cmd) (cs : List Cmd) (xs : List Slot), c.word.toNat / 8 = 3 →
    (s.sched = .agent .wreq :: xs → s.wCmds = c :: cs → s.wBusy = false → step s = .refused .noPort) ∧
    (s.sched = .agent .rreq :: xs → s.rCmds = c :: cs → step s = .refused .noPort) ∧
    (s.sched = .agent .treq :: xs → s.tCmds = c :: cs → s.tBusy = false → step s = .refused .noPort))

/-! ### The W port -/

/-- 40_producer_ops.md R129, R130: W_NOP completes with OK and the reserved code 111 with ILLEGAL; both leave `w_rdata`
and everything else unchanged. -/
def Obligations.WNopAndReservedWCodeOnlyComplete : Prop :=
  (∀ s : State, s.wBusy = false →
    exec .wNop s = .next { s with
      wStatus := 0, wAck := true
      history := s.history ++ [.completed ⟨.w, .wNop, .ok, none⟩] } ∧
    exec .wReserved111 s = .next { s with
      wStatus := 3, wAck := true
      history := s.history ++ [.completed ⟨.w, .wReserved111, .illegal, none⟩] }) ∧
  (∀ d a b : Word64, decode ⟨0b00000#5, d, a, b⟩ = .ok .wNop ∧ decode ⟨0b00111#5, d, a, b⟩ = .ok .wReserved111)

/-- 40_producer_ops.md R121: PUSH drops and counts when full in the producer's view, and otherwise stores the item at
slot `head` and publishes the next `head`; every other slot reads as before. -/
def Obligations.PushStoresOrDropsTheItem : Prop :=
  (∀ (d : Word64) (s : State), s.wBusy = false → s.head + 1 = s.tailW →
    exec (.push d) s = .next { s with
      ovf := s.ovf + 1, wStatus := 1, wAck := true
      history := s.history ++ [.completed ⟨.w, .push, .full, none⟩] }) ∧
  (∀ (d : Word64) (s : State), s.wBusy = false → s.head + 1 ≠ s.tailW →
    ∃ m : Memory s.cfg.W,
      exec (.push d) s = .next { s with
        mem := m, head := s.head + 1, headGray := (s.head + 1) ^^^ ((s.head + 1) >>> 1), wStatus := 0, wAck := true
        history := s.history ++ [.completed ⟨.w, .push, .ok, none⟩] } ∧
      ∀ i, m.read i = if i = s.head.toNat then some (d.setWidth s.cfg.W) else s.mem.read i) ∧
  (∀ d a b : Word64, decode ⟨0b00001#5, d, a, b⟩ = .ok (.push d))

/-- 40_producer_ops.md R123: PUSH_BLOCKING stores at once when not full in the producer's view, and otherwise latches its
item and waits without a completion. That a wait leaves `w_ack` low is the model's choice (log entry 4). -/
def Obligations.PushBlockingStoresOrWaits : Prop :=
  (∀ (d : Word64) (s : State), s.wBusy = false → s.head + 1 ≠ s.tailW →
    ∃ m : Memory s.cfg.W,
      exec (.pushBlocking d) s = .next { s with
        mem := m, head := s.head + 1, headGray := (s.head + 1) ^^^ ((s.head + 1) >>> 1), wStatus := 0, wAck := true
        history := s.history ++ [.completed ⟨.w, .pushBlocking, .ok, none⟩] } ∧
      ∀ i, m.read i = if i = s.head.toNat then some (d.setWidth s.cfg.W) else s.mem.read i) ∧
  (∀ (d : Word64) (s : State), s.wBusy = false → s.head + 1 = s.tailW →
    exec (.pushBlocking d) s = .next { s with wBusy := true, wPdata := d.setWidth s.cfg.W, wAck := false }) ∧
  (∀ d a b : Word64, decode ⟨0b00010#5, d, a, b⟩ = .ok (.pushBlocking d))

/-- 40_producer_ops.md R125 to R128: the four W queries answer in the producer's view and change only the port's result
registers. The size is `head ⊖ tail_w` of 00_scope.md R14, computed on natural numbers. -/
def Obligations.ProducerQueriesAnswerInTheProducersView : Prop :=
  ∀ s : State, s.wBusy = false →
    (exec .wFull s = .next { s with
      wStatus := 0, wRdata := if s.head + 1 = s.tailW then 1 else 0, wAck := true
      history := s.history ++ [.completed ⟨.w, .wFull, .ok, some (if s.head + 1 = s.tailW then 1 else 0)⟩] }) ∧
    (exec .wEmpty s = .next { s with
      wStatus := 0, wRdata := if s.head = s.tailW then 1 else 0, wAck := true
      history := s.history ++ [.completed ⟨.w, .wEmpty, .ok, some (if s.head = s.tailW then 1 else 0)⟩] }) ∧
    (exec .wSize s = .next { s with
      wStatus := 0, wAck := true
      wRdata := BitVec.ofNat 64 ((s.head.toNat + 2 ^ s.cfg.A - s.tailW.toNat) % 2 ^ s.cfg.A)
      history := s.history ++
        [.completed ⟨.w, .wSize, .ok,
          some (BitVec.ofNat 64 ((s.head.toNat + 2 ^ s.cfg.A - s.tailW.toNat) % 2 ^ s.cfg.A))⟩] }) ∧
    (exec .wOvf s = .next { s with
      wStatus := 0, wRdata := BitVec.ofNat 64 s.ovf.toNat, wAck := true
      history := s.history ++ [.completed ⟨.w, .wOvf, .ok, some (BitVec.ofNat 64 s.ovf.toNat)⟩] })

/-- 40_producer_ops.md R124: WENG completes a pending PUSH_BLOCKING where the producer's view is not full. R124 says only
when the step is enabled; that a turn given to WENG at any other time leaves the state as it was is the model's choice (log
entry 3). -/
def Obligations.EngineCompletesAPendingPush : Prop :=
  (∀ s : State, s.wBusy = true → s.head + 1 ≠ s.tailW →
    ∃ m : Memory s.cfg.W,
      runAgent .weng s = .next { s with
        mem := m, head := s.head + 1, headGray := (s.head + 1) ^^^ ((s.head + 1) >>> 1), wBusy := false
        wStatus := 0, wAck := true
        history := s.history ++ [.completed ⟨.w, .pushBlocking, .ok, none⟩] } ∧
      ∀ i, m.read i = if i = s.head.toNat then some s.wPdata else s.mem.read i) ∧
  (∀ s : State, s.wBusy = false ∨ s.head + 1 = s.tailW → runAgent .weng s = .next s)

/-- 30_encoding.md R93: while `w_ready = 0` or `t_ready = 0` nothing is issued on that port, and the command stays
presented. That `exec` at a busy port answers the same state, and that the requester's turn passes with the schedule moved
on by one, is the model's choice (log entries 2, 3 and 11). -/
def Obligations.ABusyPortIssuesNothing : Prop :=
  (∀ (i : Instr) (s : State), i.port? = some .w → s.wBusy = true → exec i s = .next s) ∧
  (∀ (i : Instr) (s : State), i.port? = some .t → s.tBusy = true → exec i s = .next s) ∧
  (∀ (s : State) (xs : List Slot), s.sched = .agent .wreq :: xs → s.wBusy = true →
    step s = .next { s with sched := xs }) ∧
  (∀ (s : State) (xs : List Slot), s.sched = .agent .treq :: xs → s.tBusy = true →
    step s = .next { s with sched := xs })

/-- 40_producer_ops.md R122, the full-buffer law, with its lagging case: let a FIFO be empty and let the producer's view
lag its tail by `lag` slots. Of N PUSHes in a row the first N−1−`lag` complete with OK and the others with FULL, `ovf`
rises by 1+`lag`, and the slots from the old `head` on hold the accepted items in order. With a current view `lag` is 0:
N−1 succeed, the N-th fails, and `ovf` rises by exactly 1. -/
def Obligations.FullBufferLaw : Prop :=
  ∀ (s : State) (items : List Word64) (lag : Nat), s.wBusy = false → s.head = s.tail →
    lag = (s.tail - s.tailW).toNat → items.length = s.cfg.N →
    ∃ t : State, execAll (items.map Instr.push) s = .next t ∧
      t.history = s.history ++ List.replicate (s.cfg.N - 1 - lag) (.completed ⟨.w, .push, .ok, none⟩)
        ++ List.replicate (lag + 1) (.completed ⟨.w, .push, .full, none⟩) ∧
      t.ovf = s.ovf + BitVec.ofNat 32 (lag + 1) ∧
      ∀ k, k < s.cfg.N - 1 - lag →
        (t.mem.read ((s.head.toNat + k) % s.cfg.N)).map zext64
          = (items[k]?).map (fun d => zext64 (d.setWidth s.cfg.W))

/-! ### The R port -/

/-- 41_consumer_ops.md R155, R156: R_NOP completes with OK and the three reserved codes with ILLEGAL; all leave `r_rdata`
and everything else unchanged. -/
def Obligations.RNopAndReservedRCodesOnlyComplete : Prop :=
  (∀ s : State,
    exec .rNop s = .next { s with
      rStatus := 0, rAck := true
      history := s.history ++ [.completed ⟨.r, .rNop, .ok, none⟩] } ∧
    exec .rReserved010 s = .next { s with
      rStatus := 3, rAck := true
      history := s.history ++ [.completed ⟨.r, .rReserved010, .illegal, none⟩] } ∧
    exec .rReserved110 s = .next { s with
      rStatus := 3, rAck := true
      history := s.history ++ [.completed ⟨.r, .rReserved110, .illegal, none⟩] } ∧
    exec .rReserved111 s = .next { s with
      rStatus := 3, rAck := true
      history := s.history ++ [.completed ⟨.r, .rReserved111, .illegal, none⟩] }) ∧
  (∀ d a b : Word64, decode ⟨0b01000#5, d, a, b⟩ = .ok .rNop ∧ decode ⟨0b01010#5, d, a, b⟩ = .ok .rReserved010 ∧
    decode ⟨0b01110#5, d, a, b⟩ = .ok .rReserved110 ∧ decode ⟨0b01111#5, d, a, b⟩ = .ok .rReserved111)

/-- 41_consumer_ops.md R151: POP on empty in the consumer's view changes no FIFO state; otherwise it returns slot `tail`
zero-extended and advances `tail`. It writes no slot. -/
def Obligations.PopReturnsTheOldestItemOrEmpty : Prop :=
  (∀ s : State, s.tail = s.headR →
    exec .pop s = .next { s with
      rStatus := 2, rAck := true
      history := s.history ++ [.completed ⟨.r, .pop, .empty, none⟩] }) ∧
  (∀ (s : State) (v : BitVec s.cfg.W), s.tail ≠ s.headR → s.mem.read s.tail.toNat = some v →
    exec .pop s = .next { s with
      tail := s.tail + 1, tailGray := (s.tail + 1) ^^^ ((s.tail + 1) >>> 1), rStatus := 0, rAck := true
      rRdata := BitVec.ofNat 64 v.toNat
      history := s.history ++ [.completed ⟨.r, .pop, .ok, some (BitVec.ofNat 64 v.toNat)⟩] }) ∧
  (∀ d a b : Word64, decode ⟨0b01001#5, d, a, b⟩ = .ok .pop)

/-- 10_state.md R35: reading a slot that holds no value is a fault, which names the slot. -/
def Obligations.PopOfASlotWithNoValueFaults : Prop :=
  ∀ s : State, s.tail ≠ s.headR → s.mem.read s.tail.toNat = none →
    exec .pop s = .fault (.unwrittenSlot s.tail.toNat)

/-- 41_consumer_ops.md R152 to R154: the three R queries answer in the consumer's view and change only the port's result
registers. The size is `head_r ⊖ tail` of 00_scope.md R14, computed on natural numbers. -/
def Obligations.ConsumerQueriesAnswerInTheConsumersView : Prop :=
  ∀ s : State,
    (exec .rFull s = .next { s with
      rStatus := 0, rRdata := if s.headR + 1 = s.tail then 1 else 0, rAck := true
      history := s.history ++ [.completed ⟨.r, .rFull, .ok, some (if s.headR + 1 = s.tail then 1 else 0)⟩] }) ∧
    (exec .rEmpty s = .next { s with
      rStatus := 0, rRdata := if s.tail = s.headR then 1 else 0, rAck := true
      history := s.history ++ [.completed ⟨.r, .rEmpty, .ok, some (if s.tail = s.headR then 1 else 0)⟩] }) ∧
    (exec .rSize s = .next { s with
      rStatus := 0, rAck := true
      rRdata := BitVec.ofNat 64 ((s.headR.toNat + 2 ^ s.cfg.A - s.tail.toNat) % 2 ^ s.cfg.A)
      history := s.history ++
        [.completed ⟨.r, .rSize, .ok,
          some (BitVec.ofNat 64 ((s.headR.toNat + 2 ^ s.cfg.A - s.tail.toNat) % 2 ^ s.cfg.A))⟩] })

/-- 41_consumer_ops.md R157, its last sentence: from a state with the consumer's view current and `k` items stored, `k`
POPs in a row succeed, returning the stored items in order, and the next one fails with EMPTY. The premise that the state
meets the invariant is what "in every reachable state" is here. -/
def Obligations.DrainLaw : Prop :=
  ∀ s : State, s.Inv → s.headR = s.head →
    ∃ t : State, execAll (List.replicate (s.size.toNat + 1) .pop) s = .next t ∧
      t.history = s.history ++ s.queue.map (fun v => .completed ⟨.r, .pop, .ok, v⟩)
        ++ [.completed ⟨.r, .pop, .empty, none⟩] ∧
      t.tail.toNat = s.head.toNat ∧ t.rStatus = 2

/-! ### The T port -/

/-- 42_counter_ops.md R171, R180: T_NOP completes with OK and the reserved code 111 with ILLEGAL; both leave `t_rdata` and
everything else unchanged. -/
def Obligations.TNopAndReservedTCodeOnlyComplete : Prop :=
  (∀ s : State, s.tBusy = false →
    exec .tNop s = .next { s with
      tStatus := 0, tAck := true
      history := s.history ++ [.completed ⟨.t, .tNop, .ok, none⟩] } ∧
    exec .tReserved111 s = .next { s with
      tStatus := 3, tAck := true
      history := s.history ++ [.completed ⟨.t, .tReserved111, .illegal, none⟩] }) ∧
  (∀ d a b : Word64, decode ⟨0b10000#5, d, a, b⟩ = .ok .tNop ∧ decode ⟨0b10111#5, d, a, b⟩ = .ok .tReserved111)

/-- 42_counter_ops.md R172: NOW returns the count zero-extended and does not change it. -/
def Obligations.NowReturnsTheCount : Prop :=
  (∀ s : State, s.tBusy = false →
    exec .now s = .next { s with
      tStatus := 0, tRdata := BitVec.ofNat 64 s.count.toNat, tAck := true
      history := s.history ++ [.completed ⟨.t, .now, .ok, some (BitVec.ofNat 64 s.count.toNat)⟩] }) ∧
  (∀ d a b : Word64, decode ⟨0b10001#5, d, a, b⟩ = .ok .now)

/-- 42_counter_ops.md R178: INIT clears the count and leaves `t_rdata` and the FIFO unchanged. -/
def Obligations.InitClearsTheCount : Prop :=
  (∀ s : State, s.tBusy = false →
    exec .init s = .next { s with
      count := 0, tStatus := 0, tAck := true
      history := s.history ++ [.completed ⟨.t, .init, .ok, none⟩] }) ∧
  (∀ d a b : Word64, decode ⟨0b10110#5, d, a, b⟩ = .ok .init)

/-- 42_counter_ops.md R173: ELAPSED returns `(n − s) mod 2^CW` of the low `CW` bits of its operands; it does not read the
count. -/
def Obligations.ElapsedIsTheWrappingInterval : Prop :=
  (∀ (a b : Word64) (s : State), s.tBusy = false →
    ∃ r : Word64,
      r.toNat = (b.toNat % 2 ^ s.cfg.CW + 2 ^ s.cfg.CW - a.toNat % 2 ^ s.cfg.CW) % 2 ^ s.cfg.CW ∧
      exec (.elapsed a b) s = .next { s with
        tStatus := 0, tRdata := r, tAck := true
        history := s.history ++ [.completed ⟨.t, .elapsed, .ok, some r⟩] }) ∧
  (∀ d a b : Word64, decode ⟨0b10010#5, d, a, b⟩ = .ok (.elapsed a b))

/-- 42_counter_ops.md R174: T2D returns the product of the low `CW` bits and the low 32 bits of its operands, modulo
2^64, with status OK; the product does not wrap where `CW ≤ 32`. -/
def Obligations.TicksToDurationMultipliesModulo64Bits : Prop :=
  (∀ (a b : Word64) (s : State), s.tBusy = false →
    ∃ r : Word64,
      r.toNat = (a.toNat % 2 ^ s.cfg.CW) * (b.toNat % 2 ^ 32) % 2 ^ 64 ∧
      (s.cfg.CW ≤ 32 → r.toNat = (a.toNat % 2 ^ s.cfg.CW) * (b.toNat % 2 ^ 32)) ∧
      exec (.t2d a b) s = .next { s with
        tStatus := 0, tRdata := r, tAck := true
        history := s.history ++ [.completed ⟨.t, .t2d, .ok, some r⟩] }) ∧
  (∀ d a b : Word64, decode ⟨0b10011#5, d, a, b⟩ = .ok (.t2d a b))

/-- 42_counter_ops.md R175: D2T returns the full 64-bit floor quotient, or DIV_ZERO with all ones where the low 32 bits
of the period operand are 0. -/
def Obligations.DurationToTicksDividesOrReportsDivZero : Prop :=
  (∀ (a b : Word64) (s : State), s.tBusy = false → b.toNat % 2 ^ 32 = 0 →
    exec (.d2t a b) s = .next { s with
      tStatus := 4, tRdata := 0xFFFFFFFFFFFFFFFF#64, tAck := true
      history := s.history ++ [.completed ⟨.t, .d2t, .divZero, some 0xFFFFFFFFFFFFFFFF#64⟩] }) ∧
  (∀ (a b : Word64) (s : State), s.tBusy = false → b.toNat % 2 ^ 32 ≠ 0 →
    ∃ r : Word64, r.toNat = a.toNat / (b.toNat % 2 ^ 32) ∧
      exec (.d2t a b) s = .next { s with
        tStatus := 0, tRdata := r, tAck := true
        history := s.history ++ [.completed ⟨.t, .d2t, .ok, some r⟩] }) ∧
  (∀ d a b : Word64, decode ⟨0b10100#5, d, a, b⟩ = .ok (.d2t a b))

/-- 42_counter_ops.md R176: SLEEP_UNTIL completes at once with the count where the count has reached the target, and
otherwise latches the target and waits without a completion. That a wait leaves `t_ack` low is the model's choice (log
entry 4). -/
def Obligations.SleepUntilCompletesOrWaits : Prop :=
  (∀ (a : Word64) (s : State), s.tBusy = false → a.toNat ≤ s.count.toNat →
    exec (.sleepUntil a) s = .next { s with
      tStatus := 0, tRdata := BitVec.ofNat 64 s.count.toNat, tAck := true
      history := s.history ++ [.completed ⟨.t, .sleepUntil, .ok, some (BitVec.ofNat 64 s.count.toNat)⟩] }) ∧
  (∀ (a : Word64) (s : State), s.tBusy = false → s.count.toNat < a.toNat →
    exec (.sleepUntil a) s = .next { s with tBusy := true, tTarget := a, tAck := false }) ∧
  (∀ d a b : Word64, decode ⟨0b10101#5, d, a, b⟩ = .ok (.sleepUntil a))

/-- 42_counter_ops.md R177: TENG completes a pending SLEEP_UNTIL where the count has reached the target, and while it may,
the TICK step is not enabled. R177 says only when a step is enabled; that a turn given to TICK or TENG at any other time
leaves the state as it was is the model's choice (log entry 3). -/
def Obligations.EngineCompletesAPendingSleepBeforeAnyTick : Prop :=
  (∀ s : State, s.tBusy = true → s.tTarget.toNat ≤ s.count.toNat →
    runAgent .teng s = .next { s with
      tBusy := false, tStatus := 0, tRdata := BitVec.ofNat 64 s.count.toNat, tAck := true
      history := s.history ++ [.completed ⟨.t, .sleepUntil, .ok, some (BitVec.ofNat 64 s.count.toNat)⟩] } ∧
    runAgent .tick s = .next s) ∧
  (∀ s : State, s.tBusy = false ∨ s.count.toNat < s.tTarget.toNat → runAgent .teng s = .next s)

/-- 42_counter_ops.md R179: a tick event adds 1 to the count modulo 2^CW, unless TENG's step is enabled, and changes
nothing else. -/
def Obligations.TickAddsOneModuloTheWidth : Prop :=
  ∀ s : State, s.tBusy = false ∨ s.count.toNat < s.tTarget.toNat →
    runAgent .tick s = .next { s with count := BitVec.ofNat s.cfg.CW ((s.count.toNat + 1) % 2 ^ s.cfg.CW) }

/-- 42_counter_ops.md R182, the interval law: for any steps of any agents between two NOWs, with no reset and no INIT
issued among them, and T tick events among them, the second NOW is the first plus T modulo 2^CW, and ELAPSED of the two is
T modulo 2^CW. -/
def Obligations.IntervalLaw : Prop :=
  ∀ (s s1 s2 s3 s4 : State) (acts : List Act),
    s.tBusy = false → exec .now s = .next s1 →
    Act.agent .rst ∉ acts → initsDuring acts s1 = 0 →
    runActs acts s1 = .next s2 → s2.tBusy = false → exec .now s2 = .next s3 →
    exec (.elapsed s1.tRdata s3.tRdata) s3 = .next s4 →
    s3.tRdata.toNat = (s1.tRdata.toNat + ticksDuring acts s1) % 2 ^ s.cfg.CW ∧
    s4.tRdata.toNat = ticksDuring acts s1 % 2 ^ s.cfg.CW ∧
    (ticksDuring acts s1 < 2 ^ s.cfg.CW → s4.tRdata.toNat = ticksDuring acts s1) ∧
    (s1.tRdata.toNat + ticksDuring acts s1 < 2 ^ s.cfg.CW →
      s3.tRdata.toNat = s1.tRdata.toNat + ticksDuring acts s1 ∧ s1.tRdata.toNat ≤ s3.tRdata.toNat) ∧
    (2 ^ s.cfg.CW ≤ s1.tRdata.toNat + ticksDuring acts s1 → ticksDuring acts s1 < 2 ^ s.cfg.CW →
      s3.tRdata.toNat < s1.tRdata.toNat)

/-- 42_counter_ops.md R177 and its example: a SLEEP_UNTIL pending with a target the counter can reach completes after
exactly the missing ticks, with the target as its result; no tick can carry the count past it. It speaks of turns of TICK
and then TENG alone, with no other agent between. That the `extra` turns of TICK, at which R177 gives it no step, pass and
change nothing is the model's choice (log entry 3). -/
def Obligations.APendingSleepCompletesAtItsTarget : Prop :=
  ∀ s : State, s.tBusy = true → s.count.toNat ≤ s.tTarget.toNat → s.tTarget.toNat < 2 ^ s.cfg.CW →
    ∀ extra : Nat, ∃ t : State,
      runActs (List.replicate (s.tTarget.toNat - s.count.toNat + extra) (.agent .tick) ++ [.agent .teng]) s = .next t ∧
      t.tBusy = false ∧ t.tStatus = 0 ∧ t.tRdata = s.tTarget ∧ t.count.toNat = s.tTarget.toNat

/-- 42_counter_ops.md R176 corner case 2 and 70_reset_and_hazards.md R261: a SLEEP_UNTIL pending with a target of 2^CW or
more stays pending through every run without a reset. -/
def Obligations.ASleepBeyondTheCounterNeverCompletes : Prop :=
  ∀ (s t : State) (acts : List Act), s.tBusy = true → 2 ^ s.cfg.CW ≤ s.tTarget.toNat →
    Act.agent .rst ∉ acts → runActs acts s = .next t → t.tBusy = true ∧ t.tTarget = s.tTarget

/-- 40_producer_ops.md R123 corner case 3 and 70_reset_and_hazards.md R247: at N = 1 a pending PUSH_BLOCKING stays pending
through every run without a reset. -/
def Obligations.ABlockingPushIntoOneSlotNeverCompletes : Prop :=
  ∀ (s t : State) (acts : List Act), s.cfg.A = 0 → s.wBusy = true →
    Act.agent .rst ∉ acts → runActs acts s = .next t → t.wBusy = true

/-! ### Views, agents and the step -/

/-- 20_memory.md R65: SYNC_H and SYNC_T move their view by one index when it differs from its source. R65 says only when
the step is enabled; that a turn given where the view is current leaves the state as it was is the model's choice (log
entry 3). -/
def Obligations.ViewsMoveByUnitSteps : Prop :=
  ∀ s : State,
    (s.headR ≠ s.head → runAgent .syncH s = .next { s with headR := s.headR + 1 }) ∧
    (s.headR = s.head → runAgent .syncH s = .next s) ∧
    (s.tailW ≠ s.tail → runAgent .syncT s = .next { s with tailW := s.tailW + 1 }) ∧
    (s.tailW = s.tail → runAgent .syncT s = .next s)

/-- 00_scope.md R18, 10_state.md R45: an agent whose step is not enabled changes nothing. That such a slot of the schedule
passes without a step is the model's choice (log entry 3). -/
def Obligations.AnAgentThatIsNotEnabledChangesNothing : Prop :=
  ∀ (a : Agent) (s : State), enabled a s = false → runAgent a s = .next s

/-- A step runs the decoded instruction (30_encoding.md R93, 00_scope.md R18): where the next slot of the schedule is a
requester, its port is ready and the command it presents first decodes to a command of that port, the step is `exec` of
that command on the state whose schedule and presented commands have moved on by one. That a step takes one slot of a
schedule and the first of a list of presented commands is the model's choice (log entry 2). -/
def Obligations.AStepRunsTheDecodedInstruction : Prop :=
  ∀ (s : State) (c : Cmd) (cs : List Cmd) (xs : List Slot) (i : Instr), decode c = .ok i →
    (s.sched = .agent .wreq :: xs → s.wCmds = c :: cs → s.wBusy = false → i.port? = some .w →
      step s = exec i { s with sched := xs, wCmds := cs }) ∧
    (s.sched = .agent .rreq :: xs → s.rCmds = c :: cs → i.port? = some .r →
      step s = exec i { s with sched := xs, rCmds := cs }) ∧
    (s.sched = .agent .treq :: xs → s.tCmds = c :: cs → s.tBusy = false → i.port? = some .t →
      step s = exec i { s with sched := xs, tCmds := cs })

/-- 60_exceptions.md R218: no agent but a port's own requester may issue its commands; a requester that presents another
port's command is refused by name. That this is a refusal is the model's choice (log entry 9). -/
def Obligations.ARequesterIssuesOnlyItsOwnPortsCommands : Prop :=
  ∀ (s : State) (c : Cmd) (cs : List Cmd) (xs : List Slot) (i : Instr), decode c = .ok i →
    (s.sched = .agent .wreq :: xs → s.wCmds = c :: cs → s.wBusy = false → i.port? ≠ some .w →
      step s = .refused .foreignPort) ∧
    (s.sched = .agent .rreq :: xs → s.rCmds = c :: cs → i.port? ≠ some .r → step s = .refused .foreignPort) ∧
    (s.sched = .agent .treq :: xs → s.tCmds = c :: cs → s.tBusy = false → i.port? ≠ some .t →
      step s = .refused .foreignPort)

/-- 42_counter_ops.md R181 and 60_exceptions.md R217: at one `tclk` edge an issued INIT clears the count and the edge's
tick is lost; a NOW and the comparison of a pending SLEEP_UNTIL read the count before the edge's tick, which then counts.
That an edge is a slot of the schedule is the model's choice (log entry 13). -/
def Obligations.OneCounterEdgeOrdersCommandBeforeTick : Prop :=
  (∀ (s : State) (c : Cmd) (cs : List Cmd), s.tBusy = false → s.tCmds = c :: cs → decode c = .ok .init →
    runSlot (.tEdge true true) s = .next { s with
      tCmds := cs, count := 0, tStatus := 0, tAck := true
      history := s.history ++ [.completed ⟨.t, .init, .ok, none⟩] }) ∧
  (∀ (s : State) (c : Cmd) (cs : List Cmd), s.tBusy = false → s.tCmds = c :: cs → decode c = .ok .now →
    runSlot (.tEdge true true) s = .next { s with
      tCmds := cs, count := s.count + 1, tStatus := 0, tRdata := BitVec.ofNat 64 s.count.toNat, tAck := true
      history := s.history ++ [.completed ⟨.t, .now, .ok, some (BitVec.ofNat 64 s.count.toNat)⟩] }) ∧
  (∀ (s : State) (valid : Bool), s.tBusy = true → s.tTarget.toNat ≤ s.count.toNat →
    runSlot (.tEdge valid true) s = .next { s with
      tBusy := false, count := s.count + 1, tStatus := 0, tRdata := BitVec.ofNat 64 s.count.toNat, tAck := true
      history := s.history ++ [.completed ⟨.t, .sleepUntil, .ok, some (BitVec.ofNat 64 s.count.toNat)⟩] })

/-- 60_exceptions.md R217 items 2 and 3: at one `wclk` or `rclk` edge the command reads the view as it was before the
edge, and the view's move at the same edge counts after it: a PUSH that finds the old view full is dropped, and a POP that
finds the old view empty fails, though the view moves at that very edge. That an edge is a slot of the schedule is the
model's choice (log entry 13). -/
def Obligations.OneFifoEdgeOrdersCommandBeforeViewShift : Prop :=
  (∀ (s : State) (c : Cmd) (cs : List Cmd) (d : Word64), s.wBusy = false → s.wCmds = c :: cs →
    decode c = .ok (.push d) → s.head + 1 = s.tailW → s.tailW ≠ s.tail →
    runSlot (.wEdge true 1) s = .next { s with
      wCmds := cs, ovf := s.ovf + 1, wStatus := 1, wAck := true, tailW := s.tailW + 1
      history := s.history ++ [.completed ⟨.w, .push, .full, none⟩] }) ∧
  (∀ (s : State) (c : Cmd) (cs : List Cmd), s.rCmds = c :: cs → decode c = .ok .pop →
    s.tail = s.headR → s.headR ≠ s.head →
    runSlot (.rEdge true 1) s = .next { s with
      rCmds := cs, rStatus := 2, rAck := true, headR := s.headR + 1
      history := s.history ++ [.completed ⟨.r, .pop, .empty, none⟩] })

/-- 30_encoding.md R102 with 20_memory.md R65: the directive `.sync` is unit steps of the two views until both are
current; it changes nothing else. -/
def Obligations.SyncBringsBothViewsUpToDate : Prop :=
  ∀ s : State, runSlot .sync s = .next { s with headR := s.head, tailW := s.tail }

/-- 00_scope.md R15: `gray(b) = b XOR (b >> 1)`; `bin` is the recurrence from the top bit down; `bin` undoes `gray`;
successive indices, the wrap included, differ in exactly one bit of their Gray values when `A ≥ 1`; and at `A = 0` both
functions map the one value to itself. -/
def Obligations.GrayCodeOfAnIndex : Prop :=
  (∀ (n : Nat) (b : BitVec n), gray b = b ^^^ (b >>> 1)) ∧
  (∀ (n : Nat) (g : BitVec (n + 1)), (bin g).getLsbD n = g.getLsbD n) ∧
  (∀ (n : Nat) (g : BitVec n) (i : Nat), i + 1 < n →
    (bin g).getLsbD i = ((bin g).getLsbD (i + 1) ^^ g.getLsbD i)) ∧
  (∀ (n : Nat) (b : BitVec n), bin (gray b) = b) ∧
  (∀ (n : Nat) (b : BitVec n), 1 ≤ n →
    ∃ i, i < n ∧ ∀ j, j < n → ((gray b).getLsbD j ≠ (gray (b + 1)).getLsbD j ↔ j = i)) ∧
  (∀ b : BitVec 0, gray b = b ∧ bin b = b)

/-- 10_state.md R32, R37, 00_scope.md R17: after reset, a chain of `S` stages that samples the Gray values of indices at
successive edges shows, as its view, the index sampled `S` edges ago, and 0 before any has come through. So a view is
always an index its source held, which is what lets a model keep one view register (20_memory.md R65). -/
def Obligations.AChainShowsTheIndexSampledSEdgesAgo : Prop :=
  ∀ (n S : Nat) (xs : List (BitVec n)), 1 ≤ S →
    ((SyncChain.reset n S).edges (xs.map gray)).view
      = if S ≤ xs.length then xs.getD (xs.length - S) 0 else 0

/-! ### Invariants and laws of the whole machine -/

/-- The invariant of 20_memory.md R67, R68, R71, R79 and 10_state.md R49 holds after reset, in every configuration and
whatever the host presents. -/
def Obligations.TheInvariantHoldsAfterReset : Prop :=
  State.reset.Inv ∧
  ∀ (c : Config) (wCmds rCmds tCmds : List Cmd) (sched : List Slot), (State.started c wCmds rCmds tCmds sched).Inv

/-- Every step keeps the invariant: the cyclic order of the four indices within one lap (20_memory.md R67), an item in
every slot of the occupied arc (R68), conservation (R71), the slot of the next push (R79), the Gray copies (10_state.md
R49), the storage's canonical form, and status codes that are produced (30_encoding.md R97). -/
def Obligations.EveryStepKeepsTheInvariant : Prop :=
  ∀ s t : State, s.Inv → step s = .next t → t.Inv

/-- 20_memory.md R68: from a state with the invariant no step faults; in particular POP always completes. -/
def Obligations.NoStepFaultsUnderTheInvariant : Prop :=
  ∀ s : State, s.Inv → (∀ f, step s ≠ .fault f) ∧ (∃ t, exec .pop s = .next t)

/-- 20_memory.md R67, its consequences: `size = d2 + d3`, `size_r ≤ size ≤ size_w`, empty in the producer's view is truly
empty, full in the consumer's view is truly full. -/
def Obligations.ViewsBoundTheTrueOccupancy : Prop :=
  ∀ s : State, s.Inv →
    s.size.toNat = s.d2 + s.d3 ∧ s.size.toNat ≤ s.cfg.N - 1 ∧
    s.sizeR.toNat ≤ s.size.toNat ∧ s.size.toNat ≤ s.sizeW.toNat ∧
    (s.head = s.tailW → s.size.toNat = 0) ∧ (s.headR + 1 = s.tail → s.size.toNat = s.cfg.N - 1)

/-- 20_memory.md R71: in every reachable state the successful pushes since reset are the successful POPs since reset plus
the items stored. -/
def Obligations.ConservationInEveryReachableState : Prop :=
  ∀ t : State, t.reachable → t.pushes = t.pops + t.size.toNat

/-- 20_memory.md R69: where a push succeeds, the arc from `tail_w` up to `head` has fewer than N−1 slots, `head` is on
neither the occupied arc nor the arc of slots whose release the producer has not yet seen, and the state that the
successful PUSH, PUSH_BLOCKING or completion by WENG answers reads every slot of both arcs as before. -/
def Obligations.APushOverwritesNoSlotInUse : Prop :=
  ∀ s : State, s.Inv → s.head + 1 ≠ s.tailW →
    s.d1 + s.d2 + s.d3 < s.cfg.N - 1 ∧
    (∀ k < s.size.toNat, s.arcSlot k ≠ s.head.toNat) ∧ (∀ k < s.d1, s.unseenSlot k ≠ s.head.toNat) ∧
    (s.wBusy = false → ∀ d : Word64,
      s.pushesBesideSlotsInUse (exec (.push d) s) ∧ s.pushesBesideSlotsInUse (exec (.pushBlocking d) s)) ∧
    (s.wBusy = true → s.pushesBesideSlotsInUse (runAgent .weng s))

/-- 20_memory.md R70: across any steps of any agents without a reset, what the successful POPs returned followed by what
is stored is what was stored followed by the accepted items, in order: nothing is lost, repeated or reordered. -/
def Obligations.FifoOrderAcrossAnyInterleaving : Prop :=
  ∀ (acts : List Act) (s t : State), s.Inv → Act.agent .rst ∉ acts → runActs acts s = .next t →
    ∃ new : List Event, t.history = s.history ++ new ∧
      s.queue ++ (acceptedDuring acts s).map some = popResults new ++ t.queue

/-- 40_producer_ops.md R131 and 41_consumer_ops.md R157: in each view, full is size N−1, empty is size 0, and sizes are
below N. -/
def Obligations.FullAndEmptyAreSizes : Prop :=
  ∀ s : State,
    s.sizeW.toNat ≤ s.cfg.N - 1 ∧ (s.fullW = true ↔ s.sizeW.toNat = s.cfg.N - 1) ∧
    (s.emptyW = true ↔ s.sizeW.toNat = 0) ∧
    s.sizeR.toNat ≤ s.cfg.N - 1 ∧ (s.fullR = true ↔ s.sizeR.toNat = s.cfg.N - 1) ∧
    (s.emptyR = true ↔ s.sizeR.toNat = 0)

/-- 70_reset_and_hazards.md R263: at a quiescent point every view is exact. That "no requester is about to issue a command"
is that none is presented now is the model's choice (log entry 21). -/
def Obligations.AtAQuiescentPointEveryViewIsExact : Prop :=
  ∀ s : State, s.quiescent = true → s.sizeW = s.head - s.tail ∧ s.sizeR = s.head - s.tail

/-- 40_producer_ops.md R124: once WENG's step is enabled it stays enabled until it is taken, whatever other agent but RST
acts. -/
def Obligations.APushCompletionStaysEnabled : Prop :=
  ∀ (s t : State) (a : Agent), s.Inv → enabled .weng s = true → a ≠ .weng → a ≠ .rst → runAgent a s = .next t →
    enabled .weng t = true

/-- 42_counter_ops.md R177: once TENG's step is enabled it stays enabled until it is taken, whatever other agent but RST
acts. -/
def Obligations.ASleepCompletionStaysEnabled : Prop :=
  ∀ (s t : State) (a : Agent), enabled .teng s = true → a ≠ .teng → a ≠ .rst → runAgent a s = .next t →
    enabled .teng t = true ∧ t.count.toNat = s.count.toNat

/-- 70_reset_and_hazards.md R262 with 40_producer_ops.md R124: in an infinite run without a reset that is weakly fair to
WENG, a pending PUSH_BLOCKING whose view shows a free slot completes. -/
def Obligations.AFairRunCompletesAPendingPush : Prop :=
  ∀ (r : InfiniteRun) (n : Nat), r.weaklyFair .weng → (∀ m, r.act m ≠ .agent .rst) → (r.state n).Inv →
    enabled .weng (r.state n) = true →
    ∃ m, n ≤ m ∧ r.act m = .agent .weng ∧ (r.state m).wBusy = true ∧ (r.state (m + 1)).wBusy = false ∧
      (r.state (m + 1)).head.toNat = ((r.state m).head.toNat + 1) % (r.state m).cfg.N

/-- 10_state.md R39: exactly three things write the count: a tick, by adding 1 modulo 2^CW, and INIT and reset, by
clearing it. -/
def Obligations.OnlyTickInitAndResetWriteTheCount : Prop :=
  ∀ (s t : State) (a : Agent), runAgent a s = .next t → t.count.toNat ≠ s.count.toNat →
    (a = .tick ∧ t.count.toNat = (s.count.toNat + 1) % 2 ^ s.cfg.CW) ∨ (a = .rst ∧ t.count.toNat = 0) ∨
      (a = .treq ∧ t.count.toNat = 0 ∧ ∃ c cs, s.tCmds = c :: cs ∧ decode c = .ok .init)

/-- 10_state.md R33: only a PUSH that finds the FIFO full in the producer's view, and reset, write `ovf`, and the PUSH
adds 1 modulo 2^32. -/
def Obligations.OnlyADroppedPushCountsInOvf : Prop :=
  ∀ (s t : State) (a : Agent), runAgent a s = .next t → t.ovf ≠ s.ovf →
    a = .rst ∨ (a = .wreq ∧ s.head + 1 = s.tailW ∧ t.ovf = s.ovf + 1 ∧
      ∃ c cs d, s.wCmds = c :: cs ∧ decode c = .ok (.push d))

/-- 10_state.md R30, R31, R36, R41: exactly one domain writes each register. The producer's side writes `head` and
`tail_w`, the consumer's side `tail` and `head_r`, each index by one at a time; for the two views that is the unit step of
20_memory.md R65, which stands for the chains of R32 and R37 (log entry 1). -/
def Obligations.EachIndexIsWrittenByItsOwnDomain : Prop :=
  ∀ (s t : State) (a : Agent), a ≠ .rst → runAgent a s = .next t →
    (t.head.toNat ≠ s.head.toNat → (a = .wreq ∨ a = .weng) ∧ t.head.toNat = (s.head.toNat + 1) % s.cfg.N) ∧
    (t.tail.toNat ≠ s.tail.toNat → a = .rreq ∧ t.tail.toNat = (s.tail.toNat + 1) % s.cfg.N) ∧
    (t.headR.toNat ≠ s.headR.toNat → a = .syncH ∧ t.headR.toNat = (s.headR.toNat + 1) % s.cfg.N) ∧
    (t.tailW.toNat ≠ s.tailW.toNat → a = .syncT ∧ t.tailW.toNat = (s.tailW.toNat + 1) % s.cfg.N)

/-- 42_counter_ops.md R170: the T port shares no state with the W and R ports: whatever a W or R command does is the same
with any other T-port state, and leaves that state as it was. -/
def Obligations.FifoCommandsDoNotSeeTheCounter : Prop :=
  ∀ (i : Instr) (s t : State) (k : Nat) (busy ack : Bool) (target rd : Word64) (st : StatusWord),
    i.port? ≠ some .t → exec i s = .next t →
    t.count.toNat = s.count.toNat ∧ t.tBusy = s.tBusy ∧ t.tAck = s.tAck ∧ t.tTarget = s.tTarget ∧
    t.tRdata = s.tRdata ∧ t.tStatus = s.tStatus ∧
    exec i { s with
        count := BitVec.ofNat _ k, tBusy := busy, tAck := ack, tTarget := target, tRdata := rd, tStatus := st }
      = .next { t with
        count := BitVec.ofNat _ k, tBusy := busy, tAck := ack, tTarget := target, tRdata := rd, tStatus := st }

/-- 42_counter_ops.md R170: whatever a T command does leaves the FIFO and the W and R ports as they were: only T-port
state and the history change. -/
def Obligations.CounterCommandsChangeOnlyTheCounter : Prop :=
  ∀ (i : Instr) (s t : State), i.port? = some .t → exec i s = .next t →
    ∃ (count : BitVec s.cfg.CW) (busy ack : Bool) (target rd : Word64) (st : StatusWord) (h : List Event),
      t = { s with
        count := count, tBusy := busy, tAck := ack, tTarget := target, tRdata := rd, tStatus := st, history := h } ∧
      (h = s.history ∨ ∃ c : Completion, c.port = .t ∧ h = s.history ++ [.completed c])

/-- 10_state.md R44, 70_reset_and_hazards.md R255 item 3: no step changes a parameter (log entry 15). R240: no step, a reset
included, erases a recorded completion. -/
def Obligations.StepsKeepTheParametersAndTheRecordedHistory : Prop :=
  ∀ s t : State, step s = .next t →
    t.cfg = s.cfg ∧ ∃ new : List Event, t.history = s.history ++ new

/-- 30_encoding.md R97, 60_exceptions.md R212: in every reachable state each status register holds a code that its port
produces, never a reserved one. -/
def Obligations.ReservedStatusCodesAreNeverProduced : Prop :=
  ∀ t : State, t.reachable →
    (t.wStatus = 0 ∨ t.wStatus = 1 ∨ t.wStatus = 3) ∧ (t.rStatus = 0 ∨ t.rStatus = 2 ∨ t.rStatus = 3) ∧
    (t.tStatus = 0 ∨ t.tStatus = 3 ∨ t.tStatus = 4)

/-! ### The end of an ack pulse -/

/-- 10_state.md R34, R38, R40: an ack is a pulse, so it is 0 after an edge at which nothing completes on its port. At such
an edge, and at a slot that is one, only the ack changes. That the fall is a slot of the schedule, and that a port with
nothing to complete or issue is what such an edge means, is the model's choice (log entries 4 and 13). -/
def Obligations.AnAckFallsWhereNothingCompletes : Prop :=
  (∀ s : State,
    runSlot (.quiet .w) s = .next { s with wAck := false } ∧ runSlot (.quiet .r) s = .next { s with rAck := false } ∧
    runSlot (.quiet .t) s = .next { s with tAck := false }) ∧
  (∀ (s : State) (valid : Bool), (s.wBusy = false ∨ s.head + 1 = s.tailW) →
    (valid = false ∨ s.wBusy = true ∨ s.wCmds = []) → runSlot (.wEdge valid 0) s = .next { s with wAck := false }) ∧
  (∀ (s : State) (valid : Bool), (valid = false ∨ s.rCmds = []) →
    runSlot (.rEdge valid 0) s = .next { s with rAck := false }) ∧
  (∀ (s : State) (valid : Bool), (s.tBusy = false ∨ s.count.toNat < s.tTarget.toNat) →
    (valid = false ∨ s.tBusy = true ∨ s.tCmds = []) → runSlot (.tEdge valid false) s = .next { s with tAck := false })
end

