-- ==== Sys2Proof/Laws/State.lean ====
section
/-! SUPPORT. What each update of the state leaves in each field: one lemma per field per update, true by unfolding. -/

namespace Sys2Proof.Machine

section completeW

variable (s : State) (m : Mnemonic) (st : Status) (rd : Option Word64)

@[simp] theorem completeW_cfg : (s.completeW m st rd).cfg = s.cfg := rfl
@[simp] theorem completeW_head : (s.completeW m st rd).head = s.head := rfl
@[simp] theorem completeW_headGray : (s.completeW m st rd).headGray = s.headGray := rfl
@[simp] theorem completeW_tailW : (s.completeW m st rd).tailW = s.tailW := rfl
@[simp] theorem completeW_ovf : (s.completeW m st rd).ovf = s.ovf := rfl
@[simp] theorem completeW_wBusy : (s.completeW m st rd).wBusy = s.wBusy := rfl
@[simp] theorem completeW_wPdata : (s.completeW m st rd).wPdata = s.wPdata := rfl
@[simp] theorem completeW_wAck : (s.completeW m st rd).wAck = true := rfl
@[simp] theorem completeW_wStatus : (s.completeW m st rd).wStatus = st.code := rfl
@[simp] theorem completeW_wRdata : (s.completeW m st rd).wRdata = rd.getD s.wRdata := rfl
@[simp] theorem completeW_mem : (s.completeW m st rd).mem = s.mem := rfl
@[simp] theorem completeW_tail : (s.completeW m st rd).tail = s.tail := rfl
@[simp] theorem completeW_tailGray : (s.completeW m st rd).tailGray = s.tailGray := rfl
@[simp] theorem completeW_headR : (s.completeW m st rd).headR = s.headR := rfl
@[simp] theorem completeW_rAck : (s.completeW m st rd).rAck = s.rAck := rfl
@[simp] theorem completeW_rStatus : (s.completeW m st rd).rStatus = s.rStatus := rfl
@[simp] theorem completeW_rRdata : (s.completeW m st rd).rRdata = s.rRdata := rfl
@[simp] theorem completeW_count : (s.completeW m st rd).count = s.count := rfl
@[simp] theorem completeW_tBusy : (s.completeW m st rd).tBusy = s.tBusy := rfl
@[simp] theorem completeW_tTarget : (s.completeW m st rd).tTarget = s.tTarget := rfl
@[simp] theorem completeW_tAck : (s.completeW m st rd).tAck = s.tAck := rfl
@[simp] theorem completeW_tStatus : (s.completeW m st rd).tStatus = s.tStatus := rfl
@[simp] theorem completeW_tRdata : (s.completeW m st rd).tRdata = s.tRdata := rfl
@[simp] theorem completeW_history : (s.completeW m st rd).history = s.recorded .w m st rd := rfl
@[simp] theorem completeW_wCmds : (s.completeW m st rd).wCmds = s.wCmds := rfl
@[simp] theorem completeW_rCmds : (s.completeW m st rd).rCmds = s.rCmds := rfl
@[simp] theorem completeW_tCmds : (s.completeW m st rd).tCmds = s.tCmds := rfl
@[simp] theorem completeW_sched : (s.completeW m st rd).sched = s.sched := rfl

end completeW

section completeR

variable (s : State) (m : Mnemonic) (st : Status) (rd : Option Word64)

@[simp] theorem completeR_cfg : (s.completeR m st rd).cfg = s.cfg := rfl
@[simp] theorem completeR_head : (s.completeR m st rd).head = s.head := rfl
@[simp] theorem completeR_headGray : (s.completeR m st rd).headGray = s.headGray := rfl
@[simp] theorem completeR_tailW : (s.completeR m st rd).tailW = s.tailW := rfl
@[simp] theorem completeR_ovf : (s.completeR m st rd).ovf = s.ovf := rfl
@[simp] theorem completeR_wBusy : (s.completeR m st rd).wBusy = s.wBusy := rfl
@[simp] theorem completeR_wPdata : (s.completeR m st rd).wPdata = s.wPdata := rfl
@[simp] theorem completeR_wAck : (s.completeR m st rd).wAck = s.wAck := rfl
@[simp] theorem completeR_wStatus : (s.completeR m st rd).wStatus = s.wStatus := rfl
@[simp] theorem completeR_wRdata : (s.completeR m st rd).wRdata = s.wRdata := rfl
@[simp] theorem completeR_mem : (s.completeR m st rd).mem = s.mem := rfl
@[simp] theorem completeR_tail : (s.completeR m st rd).tail = s.tail := rfl
@[simp] theorem completeR_tailGray : (s.completeR m st rd).tailGray = s.tailGray := rfl
@[simp] theorem completeR_headR : (s.completeR m st rd).headR = s.headR := rfl
@[simp] theorem completeR_rAck : (s.completeR m st rd).rAck = true := rfl
@[simp] theorem completeR_rStatus : (s.completeR m st rd).rStatus = st.code := rfl
@[simp] theorem completeR_rRdata : (s.completeR m st rd).rRdata = rd.getD s.rRdata := rfl
@[simp] theorem completeR_count : (s.completeR m st rd).count = s.count := rfl
@[simp] theorem completeR_tBusy : (s.completeR m st rd).tBusy = s.tBusy := rfl
@[simp] theorem completeR_tTarget : (s.completeR m st rd).tTarget = s.tTarget := rfl
@[simp] theorem completeR_tAck : (s.completeR m st rd).tAck = s.tAck := rfl
@[simp] theorem completeR_tStatus : (s.completeR m st rd).tStatus = s.tStatus := rfl
@[simp] theorem completeR_tRdata : (s.completeR m st rd).tRdata = s.tRdata := rfl
@[simp] theorem completeR_history : (s.completeR m st rd).history = s.recorded .r m st rd := rfl
@[simp] theorem completeR_wCmds : (s.completeR m st rd).wCmds = s.wCmds := rfl
@[simp] theorem completeR_rCmds : (s.completeR m st rd).rCmds = s.rCmds := rfl
@[simp] theorem completeR_tCmds : (s.completeR m st rd).tCmds = s.tCmds := rfl
@[simp] theorem completeR_sched : (s.completeR m st rd).sched = s.sched := rfl

end completeR

section completeT

variable (s : State) (m : Mnemonic) (st : Status) (rd : Option Word64)

@[simp] theorem completeT_cfg : (s.completeT m st rd).cfg = s.cfg := rfl
@[simp] theorem completeT_head : (s.completeT m st rd).head = s.head := rfl
@[simp] theorem completeT_headGray : (s.completeT m st rd).headGray = s.headGray := rfl
@[simp] theorem completeT_tailW : (s.completeT m st rd).tailW = s.tailW := rfl
@[simp] theorem completeT_ovf : (s.completeT m st rd).ovf = s.ovf := rfl
@[simp] theorem completeT_wBusy : (s.completeT m st rd).wBusy = s.wBusy := rfl
@[simp] theorem completeT_wPdata : (s.completeT m st rd).wPdata = s.wPdata := rfl
@[simp] theorem completeT_wAck : (s.completeT m st rd).wAck = s.wAck := rfl
@[simp] theorem completeT_wStatus : (s.completeT m st rd).wStatus = s.wStatus := rfl
@[simp] theorem completeT_wRdata : (s.completeT m st rd).wRdata = s.wRdata := rfl
@[simp] theorem completeT_mem : (s.completeT m st rd).mem = s.mem := rfl
@[simp] theorem completeT_tail : (s.completeT m st rd).tail = s.tail := rfl
@[simp] theorem completeT_tailGray : (s.completeT m st rd).tailGray = s.tailGray := rfl
@[simp] theorem completeT_headR : (s.completeT m st rd).headR = s.headR := rfl
@[simp] theorem completeT_rAck : (s.completeT m st rd).rAck = s.rAck := rfl
@[simp] theorem completeT_rStatus : (s.completeT m st rd).rStatus = s.rStatus := rfl
@[simp] theorem completeT_rRdata : (s.completeT m st rd).rRdata = s.rRdata := rfl
@[simp] theorem completeT_count : (s.completeT m st rd).count = s.count := rfl
@[simp] theorem completeT_tBusy : (s.completeT m st rd).tBusy = s.tBusy := rfl
@[simp] theorem completeT_tTarget : (s.completeT m st rd).tTarget = s.tTarget := rfl
@[simp] theorem completeT_tAck : (s.completeT m st rd).tAck = true := rfl
@[simp] theorem completeT_tStatus : (s.completeT m st rd).tStatus = st.code := rfl
@[simp] theorem completeT_tRdata : (s.completeT m st rd).tRdata = rd.getD s.tRdata := rfl
@[simp] theorem completeT_history : (s.completeT m st rd).history = s.recorded .t m st rd := rfl
@[simp] theorem completeT_wCmds : (s.completeT m st rd).wCmds = s.wCmds := rfl
@[simp] theorem completeT_rCmds : (s.completeT m st rd).rCmds = s.rCmds := rfl
@[simp] theorem completeT_tCmds : (s.completeT m st rd).tCmds = s.tCmds := rfl
@[simp] theorem completeT_sched : (s.completeT m st rd).sched = s.sched := rfl

end completeT

section ackLowW

variable (s : State)

@[simp] theorem ackLowW_cfg : (s.ackLow .w).cfg = s.cfg := rfl
@[simp] theorem ackLowW_head : (s.ackLow .w).head = s.head := rfl
@[simp] theorem ackLowW_headGray : (s.ackLow .w).headGray = s.headGray := rfl
@[simp] theorem ackLowW_tailW : (s.ackLow .w).tailW = s.tailW := rfl
@[simp] theorem ackLowW_ovf : (s.ackLow .w).ovf = s.ovf := rfl
@[simp] theorem ackLowW_wBusy : (s.ackLow .w).wBusy = s.wBusy := rfl
@[simp] theorem ackLowW_wPdata : (s.ackLow .w).wPdata = s.wPdata := rfl
@[simp] theorem ackLowW_wAck : (s.ackLow .w).wAck = false := rfl
@[simp] theorem ackLowW_wStatus : (s.ackLow .w).wStatus = s.wStatus := rfl
@[simp] theorem ackLowW_wRdata : (s.ackLow .w).wRdata = s.wRdata := rfl
@[simp] theorem ackLowW_mem : (s.ackLow .w).mem = s.mem := rfl
@[simp] theorem ackLowW_tail : (s.ackLow .w).tail = s.tail := rfl
@[simp] theorem ackLowW_tailGray : (s.ackLow .w).tailGray = s.tailGray := rfl
@[simp] theorem ackLowW_headR : (s.ackLow .w).headR = s.headR := rfl
@[simp] theorem ackLowW_rAck : (s.ackLow .w).rAck = s.rAck := rfl
@[simp] theorem ackLowW_rStatus : (s.ackLow .w).rStatus = s.rStatus := rfl
@[simp] theorem ackLowW_rRdata : (s.ackLow .w).rRdata = s.rRdata := rfl
@[simp] theorem ackLowW_count : (s.ackLow .w).count = s.count := rfl
@[simp] theorem ackLowW_tBusy : (s.ackLow .w).tBusy = s.tBusy := rfl
@[simp] theorem ackLowW_tTarget : (s.ackLow .w).tTarget = s.tTarget := rfl
@[simp] theorem ackLowW_tAck : (s.ackLow .w).tAck = s.tAck := rfl
@[simp] theorem ackLowW_tStatus : (s.ackLow .w).tStatus = s.tStatus := rfl
@[simp] theorem ackLowW_tRdata : (s.ackLow .w).tRdata = s.tRdata := rfl
@[simp] theorem ackLowW_history : (s.ackLow .w).history = s.history := rfl
@[simp] theorem ackLowW_wCmds : (s.ackLow .w).wCmds = s.wCmds := rfl
@[simp] theorem ackLowW_rCmds : (s.ackLow .w).rCmds = s.rCmds := rfl
@[simp] theorem ackLowW_tCmds : (s.ackLow .w).tCmds = s.tCmds := rfl
@[simp] theorem ackLowW_sched : (s.ackLow .w).sched = s.sched := rfl

end ackLowW

section ackLowR

variable (s : State)

@[simp] theorem ackLowR_cfg : (s.ackLow .r).cfg = s.cfg := rfl
@[simp] theorem ackLowR_head : (s.ackLow .r).head = s.head := rfl
@[simp] theorem ackLowR_headGray : (s.ackLow .r).headGray = s.headGray := rfl
@[simp] theorem ackLowR_tailW : (s.ackLow .r).tailW = s.tailW := rfl
@[simp] theorem ackLowR_ovf : (s.ackLow .r).ovf = s.ovf := rfl
@[simp] theorem ackLowR_wBusy : (s.ackLow .r).wBusy = s.wBusy := rfl
@[simp] theorem ackLowR_wPdata : (s.ackLow .r).wPdata = s.wPdata := rfl
@[simp] theorem ackLowR_wAck : (s.ackLow .r).wAck = s.wAck := rfl
@[simp] theorem ackLowR_wStatus : (s.ackLow .r).wStatus = s.wStatus := rfl
@[simp] theorem ackLowR_wRdata : (s.ackLow .r).wRdata = s.wRdata := rfl
@[simp] theorem ackLowR_mem : (s.ackLow .r).mem = s.mem := rfl
@[simp] theorem ackLowR_tail : (s.ackLow .r).tail = s.tail := rfl
@[simp] theorem ackLowR_tailGray : (s.ackLow .r).tailGray = s.tailGray := rfl
@[simp] theorem ackLowR_headR : (s.ackLow .r).headR = s.headR := rfl
@[simp] theorem ackLowR_rAck : (s.ackLow .r).rAck = false := rfl
@[simp] theorem ackLowR_rStatus : (s.ackLow .r).rStatus = s.rStatus := rfl
@[simp] theorem ackLowR_rRdata : (s.ackLow .r).rRdata = s.rRdata := rfl
@[simp] theorem ackLowR_count : (s.ackLow .r).count = s.count := rfl
@[simp] theorem ackLowR_tBusy : (s.ackLow .r).tBusy = s.tBusy := rfl
@[simp] theorem ackLowR_tTarget : (s.ackLow .r).tTarget = s.tTarget := rfl
@[simp] theorem ackLowR_tAck : (s.ackLow .r).tAck = s.tAck := rfl
@[simp] theorem ackLowR_tStatus : (s.ackLow .r).tStatus = s.tStatus := rfl
@[simp] theorem ackLowR_tRdata : (s.ackLow .r).tRdata = s.tRdata := rfl
@[simp] theorem ackLowR_history : (s.ackLow .r).history = s.history := rfl
@[simp] theorem ackLowR_wCmds : (s.ackLow .r).wCmds = s.wCmds := rfl
@[simp] theorem ackLowR_rCmds : (s.ackLow .r).rCmds = s.rCmds := rfl
@[simp] theorem ackLowR_tCmds : (s.ackLow .r).tCmds = s.tCmds := rfl
@[simp] theorem ackLowR_sched : (s.ackLow .r).sched = s.sched := rfl

end ackLowR

section ackLowT

variable (s : State)

@[simp] theorem ackLowT_cfg : (s.ackLow .t).cfg = s.cfg := rfl
@[simp] theorem ackLowT_head : (s.ackLow .t).head = s.head := rfl
@[simp] theorem ackLowT_headGray : (s.ackLow .t).headGray = s.headGray := rfl
@[simp] theorem ackLowT_tailW : (s.ackLow .t).tailW = s.tailW := rfl
@[simp] theorem ackLowT_ovf : (s.ackLow .t).ovf = s.ovf := rfl
@[simp] theorem ackLowT_wBusy : (s.ackLow .t).wBusy = s.wBusy := rfl
@[simp] theorem ackLowT_wPdata : (s.ackLow .t).wPdata = s.wPdata := rfl
@[simp] theorem ackLowT_wAck : (s.ackLow .t).wAck = s.wAck := rfl
@[simp] theorem ackLowT_wStatus : (s.ackLow .t).wStatus = s.wStatus := rfl
@[simp] theorem ackLowT_wRdata : (s.ackLow .t).wRdata = s.wRdata := rfl
@[simp] theorem ackLowT_mem : (s.ackLow .t).mem = s.mem := rfl
@[simp] theorem ackLowT_tail : (s.ackLow .t).tail = s.tail := rfl
@[simp] theorem ackLowT_tailGray : (s.ackLow .t).tailGray = s.tailGray := rfl
@[simp] theorem ackLowT_headR : (s.ackLow .t).headR = s.headR := rfl
@[simp] theorem ackLowT_rAck : (s.ackLow .t).rAck = s.rAck := rfl
@[simp] theorem ackLowT_rStatus : (s.ackLow .t).rStatus = s.rStatus := rfl
@[simp] theorem ackLowT_rRdata : (s.ackLow .t).rRdata = s.rRdata := rfl
@[simp] theorem ackLowT_count : (s.ackLow .t).count = s.count := rfl
@[simp] theorem ackLowT_tBusy : (s.ackLow .t).tBusy = s.tBusy := rfl
@[simp] theorem ackLowT_tTarget : (s.ackLow .t).tTarget = s.tTarget := rfl
@[simp] theorem ackLowT_tAck : (s.ackLow .t).tAck = false := rfl
@[simp] theorem ackLowT_tStatus : (s.ackLow .t).tStatus = s.tStatus := rfl
@[simp] theorem ackLowT_tRdata : (s.ackLow .t).tRdata = s.tRdata := rfl
@[simp] theorem ackLowT_history : (s.ackLow .t).history = s.history := rfl
@[simp] theorem ackLowT_wCmds : (s.ackLow .t).wCmds = s.wCmds := rfl
@[simp] theorem ackLowT_rCmds : (s.ackLow .t).rCmds = s.rCmds := rfl
@[simp] theorem ackLowT_tCmds : (s.ackLow .t).tCmds = s.tCmds := rfl
@[simp] theorem ackLowT_sched : (s.ackLow .t).sched = s.sched := rfl

end ackLowT

section pushItem

variable (s : State) (v : BitVec s.cfg.W)

@[simp] theorem pushItem_cfg : (s.pushItem v).cfg = s.cfg := rfl
@[simp] theorem pushItem_head : (s.pushItem v).head = (s.head + 1 : BitVec s.cfg.A) := rfl
@[simp] theorem pushItem_headGray : (s.pushItem v).headGray = gray (s.head + 1) := rfl
@[simp] theorem pushItem_tailW : (s.pushItem v).tailW = s.tailW := rfl
@[simp] theorem pushItem_ovf : (s.pushItem v).ovf = s.ovf := rfl
@[simp] theorem pushItem_wBusy : (s.pushItem v).wBusy = s.wBusy := rfl
@[simp] theorem pushItem_wPdata : (s.pushItem v).wPdata = s.wPdata := rfl
@[simp] theorem pushItem_wAck : (s.pushItem v).wAck = s.wAck := rfl
@[simp] theorem pushItem_wStatus : (s.pushItem v).wStatus = s.wStatus := rfl
@[simp] theorem pushItem_wRdata : (s.pushItem v).wRdata = s.wRdata := rfl
@[simp] theorem pushItem_mem : (s.pushItem v).mem = s.mem.write s.head.toNat v := rfl
@[simp] theorem pushItem_tail : (s.pushItem v).tail = s.tail := rfl
@[simp] theorem pushItem_tailGray : (s.pushItem v).tailGray = s.tailGray := rfl
@[simp] theorem pushItem_headR : (s.pushItem v).headR = s.headR := rfl
@[simp] theorem pushItem_rAck : (s.pushItem v).rAck = s.rAck := rfl
@[simp] theorem pushItem_rStatus : (s.pushItem v).rStatus = s.rStatus := rfl
@[simp] theorem pushItem_rRdata : (s.pushItem v).rRdata = s.rRdata := rfl
@[simp] theorem pushItem_count : (s.pushItem v).count = s.count := rfl
@[simp] theorem pushItem_tBusy : (s.pushItem v).tBusy = s.tBusy := rfl
@[simp] theorem pushItem_tTarget : (s.pushItem v).tTarget = s.tTarget := rfl
@[simp] theorem pushItem_tAck : (s.pushItem v).tAck = s.tAck := rfl
@[simp] theorem pushItem_tStatus : (s.pushItem v).tStatus = s.tStatus := rfl
@[simp] theorem pushItem_tRdata : (s.pushItem v).tRdata = s.tRdata := rfl
@[simp] theorem pushItem_history : (s.pushItem v).history = s.history := rfl
@[simp] theorem pushItem_wCmds : (s.pushItem v).wCmds = s.wCmds := rfl
@[simp] theorem pushItem_rCmds : (s.pushItem v).rCmds = s.rCmds := rfl
@[simp] theorem pushItem_tCmds : (s.pushItem v).tCmds = s.tCmds := rfl
@[simp] theorem pushItem_sched : (s.pushItem v).sched = s.sched := rfl

end pushItem

section popItem

variable (s : State)

@[simp] theorem popItem_cfg : s.popItem.cfg = s.cfg := rfl
@[simp] theorem popItem_head : s.popItem.head = s.head := rfl
@[simp] theorem popItem_headGray : s.popItem.headGray = s.headGray := rfl
@[simp] theorem popItem_tailW : s.popItem.tailW = s.tailW := rfl
@[simp] theorem popItem_ovf : s.popItem.ovf = s.ovf := rfl
@[simp] theorem popItem_wBusy : s.popItem.wBusy = s.wBusy := rfl
@[simp] theorem popItem_wPdata : s.popItem.wPdata = s.wPdata := rfl
@[simp] theorem popItem_wAck : s.popItem.wAck = s.wAck := rfl
@[simp] theorem popItem_wStatus : s.popItem.wStatus = s.wStatus := rfl
@[simp] theorem popItem_wRdata : s.popItem.wRdata = s.wRdata := rfl
@[simp] theorem popItem_mem : s.popItem.mem = s.mem := rfl
@[simp] theorem popItem_tail : s.popItem.tail = (s.tail + 1 : BitVec s.cfg.A) := rfl
@[simp] theorem popItem_tailGray : s.popItem.tailGray = gray (s.tail + 1) := rfl
@[simp] theorem popItem_headR : s.popItem.headR = s.headR := rfl
@[simp] theorem popItem_rAck : s.popItem.rAck = s.rAck := rfl
@[simp] theorem popItem_rStatus : s.popItem.rStatus = s.rStatus := rfl
@[simp] theorem popItem_rRdata : s.popItem.rRdata = s.rRdata := rfl
@[simp] theorem popItem_count : s.popItem.count = s.count := rfl
@[simp] theorem popItem_tBusy : s.popItem.tBusy = s.tBusy := rfl
@[simp] theorem popItem_tTarget : s.popItem.tTarget = s.tTarget := rfl
@[simp] theorem popItem_tAck : s.popItem.tAck = s.tAck := rfl
@[simp] theorem popItem_tStatus : s.popItem.tStatus = s.tStatus := rfl
@[simp] theorem popItem_tRdata : s.popItem.tRdata = s.tRdata := rfl
@[simp] theorem popItem_history : s.popItem.history = s.history := rfl
@[simp] theorem popItem_wCmds : s.popItem.wCmds = s.wCmds := rfl
@[simp] theorem popItem_rCmds : s.popItem.rCmds = s.rCmds := rfl
@[simp] theorem popItem_tCmds : s.popItem.tCmds = s.tCmds := rfl
@[simp] theorem popItem_sched : s.popItem.sched = s.sched := rfl

end popItem

section waitW

variable (s : State) (v : BitVec s.cfg.W)

@[simp] theorem waitW_cfg : (s.waitW v).cfg = s.cfg := rfl
@[simp] theorem waitW_head : (s.waitW v).head = s.head := rfl
@[simp] theorem waitW_headGray : (s.waitW v).headGray = s.headGray := rfl
@[simp] theorem waitW_tailW : (s.waitW v).tailW = s.tailW := rfl
@[simp] theorem waitW_ovf : (s.waitW v).ovf = s.ovf := rfl
@[simp] theorem waitW_wBusy : (s.waitW v).wBusy = true := rfl
@[simp] theorem waitW_wPdata : (s.waitW v).wPdata = v := rfl
@[simp] theorem waitW_wAck : (s.waitW v).wAck = false := rfl
@[simp] theorem waitW_wStatus : (s.waitW v).wStatus = s.wStatus := rfl
@[simp] theorem waitW_wRdata : (s.waitW v).wRdata = s.wRdata := rfl
@[simp] theorem waitW_mem : (s.waitW v).mem = s.mem := rfl
@[simp] theorem waitW_tail : (s.waitW v).tail = s.tail := rfl
@[simp] theorem waitW_tailGray : (s.waitW v).tailGray = s.tailGray := rfl
@[simp] theorem waitW_headR : (s.waitW v).headR = s.headR := rfl
@[simp] theorem waitW_rAck : (s.waitW v).rAck = s.rAck := rfl
@[simp] theorem waitW_rStatus : (s.waitW v).rStatus = s.rStatus := rfl
@[simp] theorem waitW_rRdata : (s.waitW v).rRdata = s.rRdata := rfl
@[simp] theorem waitW_count : (s.waitW v).count = s.count := rfl
@[simp] theorem waitW_tBusy : (s.waitW v).tBusy = s.tBusy := rfl
@[simp] theorem waitW_tTarget : (s.waitW v).tTarget = s.tTarget := rfl
@[simp] theorem waitW_tAck : (s.waitW v).tAck = s.tAck := rfl
@[simp] theorem waitW_tStatus : (s.waitW v).tStatus = s.tStatus := rfl
@[simp] theorem waitW_tRdata : (s.waitW v).tRdata = s.tRdata := rfl
@[simp] theorem waitW_history : (s.waitW v).history = s.history := rfl
@[simp] theorem waitW_wCmds : (s.waitW v).wCmds = s.wCmds := rfl
@[simp] theorem waitW_rCmds : (s.waitW v).rCmds = s.rCmds := rfl
@[simp] theorem waitW_tCmds : (s.waitW v).tCmds = s.tCmds := rfl
@[simp] theorem waitW_sched : (s.waitW v).sched = s.sched := rfl

end waitW

section waitT

variable (s : State) (t : Word64)

@[simp] theorem waitT_cfg : (s.waitT t).cfg = s.cfg := rfl
@[simp] theorem waitT_head : (s.waitT t).head = s.head := rfl
@[simp] theorem waitT_headGray : (s.waitT t).headGray = s.headGray := rfl
@[simp] theorem waitT_tailW : (s.waitT t).tailW = s.tailW := rfl
@[simp] theorem waitT_ovf : (s.waitT t).ovf = s.ovf := rfl
@[simp] theorem waitT_wBusy : (s.waitT t).wBusy = s.wBusy := rfl
@[simp] theorem waitT_wPdata : (s.waitT t).wPdata = s.wPdata := rfl
@[simp] theorem waitT_wAck : (s.waitT t).wAck = s.wAck := rfl
@[simp] theorem waitT_wStatus : (s.waitT t).wStatus = s.wStatus := rfl
@[simp] theorem waitT_wRdata : (s.waitT t).wRdata = s.wRdata := rfl
@[simp] theorem waitT_mem : (s.waitT t).mem = s.mem := rfl
@[simp] theorem waitT_tail : (s.waitT t).tail = s.tail := rfl
@[simp] theorem waitT_tailGray : (s.waitT t).tailGray = s.tailGray := rfl
@[simp] theorem waitT_headR : (s.waitT t).headR = s.headR := rfl
@[simp] theorem waitT_rAck : (s.waitT t).rAck = s.rAck := rfl
@[simp] theorem waitT_rStatus : (s.waitT t).rStatus = s.rStatus := rfl
@[simp] theorem waitT_rRdata : (s.waitT t).rRdata = s.rRdata := rfl
@[simp] theorem waitT_count : (s.waitT t).count = s.count := rfl
@[simp] theorem waitT_tBusy : (s.waitT t).tBusy = true := rfl
@[simp] theorem waitT_tTarget : (s.waitT t).tTarget = t := rfl
@[simp] theorem waitT_tAck : (s.waitT t).tAck = false := rfl
@[simp] theorem waitT_tStatus : (s.waitT t).tStatus = s.tStatus := rfl
@[simp] theorem waitT_tRdata : (s.waitT t).tRdata = s.tRdata := rfl
@[simp] theorem waitT_history : (s.waitT t).history = s.history := rfl
@[simp] theorem waitT_wCmds : (s.waitT t).wCmds = s.wCmds := rfl
@[simp] theorem waitT_rCmds : (s.waitT t).rCmds = s.rCmds := rfl
@[simp] theorem waitT_tCmds : (s.waitT t).tCmds = s.tCmds := rfl
@[simp] theorem waitT_sched : (s.waitT t).sched = s.sched := rfl

end waitT

section wengComplete

variable (s : State)

@[simp] theorem wengComplete_cfg : s.wengComplete.cfg = s.cfg := rfl
@[simp] theorem wengComplete_head : s.wengComplete.head = (s.head + 1 : BitVec s.cfg.A) := rfl
@[simp] theorem wengComplete_headGray : s.wengComplete.headGray = gray (s.head + 1) := rfl
@[simp] theorem wengComplete_tailW : s.wengComplete.tailW = s.tailW := rfl
@[simp] theorem wengComplete_ovf : s.wengComplete.ovf = s.ovf := rfl
@[simp] theorem wengComplete_wBusy : s.wengComplete.wBusy = false := rfl
@[simp] theorem wengComplete_wPdata : s.wengComplete.wPdata = s.wPdata := rfl
@[simp] theorem wengComplete_wAck : s.wengComplete.wAck = true := rfl
@[simp] theorem wengComplete_wStatus : s.wengComplete.wStatus = 0 := rfl
@[simp] theorem wengComplete_wRdata : s.wengComplete.wRdata = s.wRdata := rfl
@[simp] theorem wengComplete_mem : s.wengComplete.mem = s.mem.write s.head.toNat s.wPdata := rfl
@[simp] theorem wengComplete_tail : s.wengComplete.tail = s.tail := rfl
@[simp] theorem wengComplete_tailGray : s.wengComplete.tailGray = s.tailGray := rfl
@[simp] theorem wengComplete_headR : s.wengComplete.headR = s.headR := rfl
@[simp] theorem wengComplete_rAck : s.wengComplete.rAck = s.rAck := rfl
@[simp] theorem wengComplete_rStatus : s.wengComplete.rStatus = s.rStatus := rfl
@[simp] theorem wengComplete_rRdata : s.wengComplete.rRdata = s.rRdata := rfl
@[simp] theorem wengComplete_count : s.wengComplete.count = s.count := rfl
@[simp] theorem wengComplete_tBusy : s.wengComplete.tBusy = s.tBusy := rfl
@[simp] theorem wengComplete_tTarget : s.wengComplete.tTarget = s.tTarget := rfl
@[simp] theorem wengComplete_tAck : s.wengComplete.tAck = s.tAck := rfl
@[simp] theorem wengComplete_tStatus : s.wengComplete.tStatus = s.tStatus := rfl
@[simp] theorem wengComplete_tRdata : s.wengComplete.tRdata = s.tRdata := rfl
@[simp] theorem wengComplete_history : s.wengComplete.history = s.recorded .w .pushBlocking .ok none := rfl
@[simp] theorem wengComplete_wCmds : s.wengComplete.wCmds = s.wCmds := rfl
@[simp] theorem wengComplete_rCmds : s.wengComplete.rCmds = s.rCmds := rfl
@[simp] theorem wengComplete_tCmds : s.wengComplete.tCmds = s.tCmds := rfl
@[simp] theorem wengComplete_sched : s.wengComplete.sched = s.sched := rfl

end wengComplete

section tengComplete

variable (s : State)

@[simp] theorem tengComplete_cfg : s.tengComplete.cfg = s.cfg := rfl
@[simp] theorem tengComplete_head : s.tengComplete.head = s.head := rfl
@[simp] theorem tengComplete_headGray : s.tengComplete.headGray = s.headGray := rfl
@[simp] theorem tengComplete_tailW : s.tengComplete.tailW = s.tailW := rfl
@[simp] theorem tengComplete_ovf : s.tengComplete.ovf = s.ovf := rfl
@[simp] theorem tengComplete_wBusy : s.tengComplete.wBusy = s.wBusy := rfl
@[simp] theorem tengComplete_wPdata : s.tengComplete.wPdata = s.wPdata := rfl
@[simp] theorem tengComplete_wAck : s.tengComplete.wAck = s.wAck := rfl
@[simp] theorem tengComplete_wStatus : s.tengComplete.wStatus = s.wStatus := rfl
@[simp] theorem tengComplete_wRdata : s.tengComplete.wRdata = s.wRdata := rfl
@[simp] theorem tengComplete_mem : s.tengComplete.mem = s.mem := rfl
@[simp] theorem tengComplete_tail : s.tengComplete.tail = s.tail := rfl
@[simp] theorem tengComplete_tailGray : s.tengComplete.tailGray = s.tailGray := rfl
@[simp] theorem tengComplete_headR : s.tengComplete.headR = s.headR := rfl
@[simp] theorem tengComplete_rAck : s.tengComplete.rAck = s.rAck := rfl
@[simp] theorem tengComplete_rStatus : s.tengComplete.rStatus = s.rStatus := rfl
@[simp] theorem tengComplete_rRdata : s.tengComplete.rRdata = s.rRdata := rfl
@[simp] theorem tengComplete_count : s.tengComplete.count = s.count := rfl
@[simp] theorem tengComplete_tBusy : s.tengComplete.tBusy = false := rfl
@[simp] theorem tengComplete_tTarget : s.tengComplete.tTarget = s.tTarget := rfl
@[simp] theorem tengComplete_tAck : s.tengComplete.tAck = true := rfl
@[simp] theorem tengComplete_tStatus : s.tengComplete.tStatus = 0 := rfl
@[simp] theorem tengComplete_tRdata : s.tengComplete.tRdata = zext64 s.count := rfl
@[simp] theorem tengComplete_history : s.tengComplete.history = s.recorded .t .sleepUntil .ok (some (zext64 s.count)) := rfl
@[simp] theorem tengComplete_wCmds : s.tengComplete.wCmds = s.wCmds := rfl
@[simp] theorem tengComplete_rCmds : s.tengComplete.rCmds = s.rCmds := rfl
@[simp] theorem tengComplete_tCmds : s.tengComplete.tCmds = s.tCmds := rfl
@[simp] theorem tengComplete_sched : s.tengComplete.sched = s.sched := rfl

end tengComplete

section syncHStep

variable (s : State)

@[simp] theorem syncHStep_cfg : s.syncHStep.cfg = s.cfg := rfl
@[simp] theorem syncHStep_head : s.syncHStep.head = s.head := rfl
@[simp] theorem syncHStep_headGray : s.syncHStep.headGray = s.headGray := rfl
@[simp] theorem syncHStep_tailW : s.syncHStep.tailW = s.tailW := rfl
@[simp] theorem syncHStep_ovf : s.syncHStep.ovf = s.ovf := rfl
@[simp] theorem syncHStep_wBusy : s.syncHStep.wBusy = s.wBusy := rfl
@[simp] theorem syncHStep_wPdata : s.syncHStep.wPdata = s.wPdata := rfl
@[simp] theorem syncHStep_wAck : s.syncHStep.wAck = s.wAck := rfl
@[simp] theorem syncHStep_wStatus : s.syncHStep.wStatus = s.wStatus := rfl
@[simp] theorem syncHStep_wRdata : s.syncHStep.wRdata = s.wRdata := rfl
@[simp] theorem syncHStep_mem : s.syncHStep.mem = s.mem := rfl
@[simp] theorem syncHStep_tail : s.syncHStep.tail = s.tail := rfl
@[simp] theorem syncHStep_tailGray : s.syncHStep.tailGray = s.tailGray := rfl
@[simp] theorem syncHStep_headR : s.syncHStep.headR = (s.headR + 1 : BitVec s.cfg.A) := rfl
@[simp] theorem syncHStep_rAck : s.syncHStep.rAck = s.rAck := rfl
@[simp] theorem syncHStep_rStatus : s.syncHStep.rStatus = s.rStatus := rfl
@[simp] theorem syncHStep_rRdata : s.syncHStep.rRdata = s.rRdata := rfl
@[simp] theorem syncHStep_count : s.syncHStep.count = s.count := rfl
@[simp] theorem syncHStep_tBusy : s.syncHStep.tBusy = s.tBusy := rfl
@[simp] theorem syncHStep_tTarget : s.syncHStep.tTarget = s.tTarget := rfl
@[simp] theorem syncHStep_tAck : s.syncHStep.tAck = s.tAck := rfl
@[simp] theorem syncHStep_tStatus : s.syncHStep.tStatus = s.tStatus := rfl
@[simp] theorem syncHStep_tRdata : s.syncHStep.tRdata = s.tRdata := rfl
@[simp] theorem syncHStep_history : s.syncHStep.history = s.history := rfl
@[simp] theorem syncHStep_wCmds : s.syncHStep.wCmds = s.wCmds := rfl
@[simp] theorem syncHStep_rCmds : s.syncHStep.rCmds = s.rCmds := rfl
@[simp] theorem syncHStep_tCmds : s.syncHStep.tCmds = s.tCmds := rfl
@[simp] theorem syncHStep_sched : s.syncHStep.sched = s.sched := rfl

end syncHStep

section syncTStep

variable (s : State)

@[simp] theorem syncTStep_cfg : s.syncTStep.cfg = s.cfg := rfl
@[simp] theorem syncTStep_head : s.syncTStep.head = s.head := rfl
@[simp] theorem syncTStep_headGray : s.syncTStep.headGray = s.headGray := rfl
@[simp] theorem syncTStep_tailW : s.syncTStep.tailW = (s.tailW + 1 : BitVec s.cfg.A) := rfl
@[simp] theorem syncTStep_ovf : s.syncTStep.ovf = s.ovf := rfl
@[simp] theorem syncTStep_wBusy : s.syncTStep.wBusy = s.wBusy := rfl
@[simp] theorem syncTStep_wPdata : s.syncTStep.wPdata = s.wPdata := rfl
@[simp] theorem syncTStep_wAck : s.syncTStep.wAck = s.wAck := rfl
@[simp] theorem syncTStep_wStatus : s.syncTStep.wStatus = s.wStatus := rfl
@[simp] theorem syncTStep_wRdata : s.syncTStep.wRdata = s.wRdata := rfl
@[simp] theorem syncTStep_mem : s.syncTStep.mem = s.mem := rfl
@[simp] theorem syncTStep_tail : s.syncTStep.tail = s.tail := rfl
@[simp] theorem syncTStep_tailGray : s.syncTStep.tailGray = s.tailGray := rfl
@[simp] theorem syncTStep_headR : s.syncTStep.headR = s.headR := rfl
@[simp] theorem syncTStep_rAck : s.syncTStep.rAck = s.rAck := rfl
@[simp] theorem syncTStep_rStatus : s.syncTStep.rStatus = s.rStatus := rfl
@[simp] theorem syncTStep_rRdata : s.syncTStep.rRdata = s.rRdata := rfl
@[simp] theorem syncTStep_count : s.syncTStep.count = s.count := rfl
@[simp] theorem syncTStep_tBusy : s.syncTStep.tBusy = s.tBusy := rfl
@[simp] theorem syncTStep_tTarget : s.syncTStep.tTarget = s.tTarget := rfl
@[simp] theorem syncTStep_tAck : s.syncTStep.tAck = s.tAck := rfl
@[simp] theorem syncTStep_tStatus : s.syncTStep.tStatus = s.tStatus := rfl
@[simp] theorem syncTStep_tRdata : s.syncTStep.tRdata = s.tRdata := rfl
@[simp] theorem syncTStep_history : s.syncTStep.history = s.history := rfl
@[simp] theorem syncTStep_wCmds : s.syncTStep.wCmds = s.wCmds := rfl
@[simp] theorem syncTStep_rCmds : s.syncTStep.rCmds = s.rCmds := rfl
@[simp] theorem syncTStep_tCmds : s.syncTStep.tCmds = s.tCmds := rfl
@[simp] theorem syncTStep_sched : s.syncTStep.sched = s.sched := rfl

end syncTStep

section tickStep

variable (s : State)

@[simp] theorem tickStep_cfg : s.tickStep.cfg = s.cfg := rfl
@[simp] theorem tickStep_head : s.tickStep.head = s.head := rfl
@[simp] theorem tickStep_headGray : s.tickStep.headGray = s.headGray := rfl
@[simp] theorem tickStep_tailW : s.tickStep.tailW = s.tailW := rfl
@[simp] theorem tickStep_ovf : s.tickStep.ovf = s.ovf := rfl
@[simp] theorem tickStep_wBusy : s.tickStep.wBusy = s.wBusy := rfl
@[simp] theorem tickStep_wPdata : s.tickStep.wPdata = s.wPdata := rfl
@[simp] theorem tickStep_wAck : s.tickStep.wAck = s.wAck := rfl
@[simp] theorem tickStep_wStatus : s.tickStep.wStatus = s.wStatus := rfl
@[simp] theorem tickStep_wRdata : s.tickStep.wRdata = s.wRdata := rfl
@[simp] theorem tickStep_mem : s.tickStep.mem = s.mem := rfl
@[simp] theorem tickStep_tail : s.tickStep.tail = s.tail := rfl
@[simp] theorem tickStep_tailGray : s.tickStep.tailGray = s.tailGray := rfl
@[simp] theorem tickStep_headR : s.tickStep.headR = s.headR := rfl
@[simp] theorem tickStep_rAck : s.tickStep.rAck = s.rAck := rfl
@[simp] theorem tickStep_rStatus : s.tickStep.rStatus = s.rStatus := rfl
@[simp] theorem tickStep_rRdata : s.tickStep.rRdata = s.rRdata := rfl
@[simp] theorem tickStep_count : s.tickStep.count = (s.count + 1 : BitVec s.cfg.CW) := rfl
@[simp] theorem tickStep_tBusy : s.tickStep.tBusy = s.tBusy := rfl
@[simp] theorem tickStep_tTarget : s.tickStep.tTarget = s.tTarget := rfl
@[simp] theorem tickStep_tAck : s.tickStep.tAck = s.tAck := rfl
@[simp] theorem tickStep_tStatus : s.tickStep.tStatus = s.tStatus := rfl
@[simp] theorem tickStep_tRdata : s.tickStep.tRdata = s.tRdata := rfl
@[simp] theorem tickStep_history : s.tickStep.history = s.history := rfl
@[simp] theorem tickStep_wCmds : s.tickStep.wCmds = s.wCmds := rfl
@[simp] theorem tickStep_rCmds : s.tickStep.rCmds = s.rCmds := rfl
@[simp] theorem tickStep_tCmds : s.tickStep.tCmds = s.tCmds := rfl
@[simp] theorem tickStep_sched : s.tickStep.sched = s.sched := rfl

end tickStep

section withPresentedW

variable (s : State) (cs : List Cmd)

@[simp] theorem withPresentedW_cfg : (s.withPresented .w cs).cfg = s.cfg := rfl
@[simp] theorem withPresentedW_head : (s.withPresented .w cs).head = s.head := rfl
@[simp] theorem withPresentedW_headGray : (s.withPresented .w cs).headGray = s.headGray := rfl
@[simp] theorem withPresentedW_tailW : (s.withPresented .w cs).tailW = s.tailW := rfl
@[simp] theorem withPresentedW_ovf : (s.withPresented .w cs).ovf = s.ovf := rfl
@[simp] theorem withPresentedW_wBusy : (s.withPresented .w cs).wBusy = s.wBusy := rfl
@[simp] theorem withPresentedW_wPdata : (s.withPresented .w cs).wPdata = s.wPdata := rfl
@[simp] theorem withPresentedW_wAck : (s.withPresented .w cs).wAck = s.wAck := rfl
@[simp] theorem withPresentedW_wStatus : (s.withPresented .w cs).wStatus = s.wStatus := rfl
@[simp] theorem withPresentedW_wRdata : (s.withPresented .w cs).wRdata = s.wRdata := rfl
@[simp] theorem withPresentedW_mem : (s.withPresented .w cs).mem = s.mem := rfl
@[simp] theorem withPresentedW_tail : (s.withPresented .w cs).tail = s.tail := rfl
@[simp] theorem withPresentedW_tailGray : (s.withPresented .w cs).tailGray = s.tailGray := rfl
@[simp] theorem withPresentedW_headR : (s.withPresented .w cs).headR = s.headR := rfl
@[simp] theorem withPresentedW_rAck : (s.withPresented .w cs).rAck = s.rAck := rfl
@[simp] theorem withPresentedW_rStatus : (s.withPresented .w cs).rStatus = s.rStatus := rfl
@[simp] theorem withPresentedW_rRdata : (s.withPresented .w cs).rRdata = s.rRdata := rfl
@[simp] theorem withPresentedW_count : (s.withPresented .w cs).count = s.count := rfl
@[simp] theorem withPresentedW_tBusy : (s.withPresented .w cs).tBusy = s.tBusy := rfl
@[simp] theorem withPresentedW_tTarget : (s.withPresented .w cs).tTarget = s.tTarget := rfl
@[simp] theorem withPresentedW_tAck : (s.withPresented .w cs).tAck = s.tAck := rfl
@[simp] theorem withPresentedW_tStatus : (s.withPresented .w cs).tStatus = s.tStatus := rfl
@[simp] theorem withPresentedW_tRdata : (s.withPresented .w cs).tRdata = s.tRdata := rfl
@[simp] theorem withPresentedW_history : (s.withPresented .w cs).history = s.history := rfl
@[simp] theorem withPresentedW_wCmds : (s.withPresented .w cs).wCmds = cs := rfl
@[simp] theorem withPresentedW_rCmds : (s.withPresented .w cs).rCmds = s.rCmds := rfl
@[simp] theorem withPresentedW_tCmds : (s.withPresented .w cs).tCmds = s.tCmds := rfl
@[simp] theorem withPresentedW_sched : (s.withPresented .w cs).sched = s.sched := rfl

end withPresentedW

section withPresentedR

variable (s : State) (cs : List Cmd)

@[simp] theorem withPresentedR_cfg : (s.withPresented .r cs).cfg = s.cfg := rfl
@[simp] theorem withPresentedR_head : (s.withPresented .r cs).head = s.head := rfl
@[simp] theorem withPresentedR_headGray : (s.withPresented .r cs).headGray = s.headGray := rfl
@[simp] theorem withPresentedR_tailW : (s.withPresented .r cs).tailW = s.tailW := rfl
@[simp] theorem withPresentedR_ovf : (s.withPresented .r cs).ovf = s.ovf := rfl
@[simp] theorem withPresentedR_wBusy : (s.withPresented .r cs).wBusy = s.wBusy := rfl
@[simp] theorem withPresentedR_wPdata : (s.withPresented .r cs).wPdata = s.wPdata := rfl
@[simp] theorem withPresentedR_wAck : (s.withPresented .r cs).wAck = s.wAck := rfl
@[simp] theorem withPresentedR_wStatus : (s.withPresented .r cs).wStatus = s.wStatus := rfl
@[simp] theorem withPresentedR_wRdata : (s.withPresented .r cs).wRdata = s.wRdata := rfl
@[simp] theorem withPresentedR_mem : (s.withPresented .r cs).mem = s.mem := rfl
@[simp] theorem withPresentedR_tail : (s.withPresented .r cs).tail = s.tail := rfl
@[simp] theorem withPresentedR_tailGray : (s.withPresented .r cs).tailGray = s.tailGray := rfl
@[simp] theorem withPresentedR_headR : (s.withPresented .r cs).headR = s.headR := rfl
@[simp] theorem withPresentedR_rAck : (s.withPresented .r cs).rAck = s.rAck := rfl
@[simp] theorem withPresentedR_rStatus : (s.withPresented .r cs).rStatus = s.rStatus := rfl
@[simp] theorem withPresentedR_rRdata : (s.withPresented .r cs).rRdata = s.rRdata := rfl
@[simp] theorem withPresentedR_count : (s.withPresented .r cs).count = s.count := rfl
@[simp] theorem withPresentedR_tBusy : (s.withPresented .r cs).tBusy = s.tBusy := rfl
@[simp] theorem withPresentedR_tTarget : (s.withPresented .r cs).tTarget = s.tTarget := rfl
@[simp] theorem withPresentedR_tAck : (s.withPresented .r cs).tAck = s.tAck := rfl
@[simp] theorem withPresentedR_tStatus : (s.withPresented .r cs).tStatus = s.tStatus := rfl
@[simp] theorem withPresentedR_tRdata : (s.withPresented .r cs).tRdata = s.tRdata := rfl
@[simp] theorem withPresentedR_history : (s.withPresented .r cs).history = s.history := rfl
@[simp] theorem withPresentedR_wCmds : (s.withPresented .r cs).wCmds = s.wCmds := rfl
@[simp] theorem withPresentedR_rCmds : (s.withPresented .r cs).rCmds = cs := rfl
@[simp] theorem withPresentedR_tCmds : (s.withPresented .r cs).tCmds = s.tCmds := rfl
@[simp] theorem withPresentedR_sched : (s.withPresented .r cs).sched = s.sched := rfl

end withPresentedR

section withPresentedT

variable (s : State) (cs : List Cmd)

@[simp] theorem withPresentedT_cfg : (s.withPresented .t cs).cfg = s.cfg := rfl
@[simp] theorem withPresentedT_head : (s.withPresented .t cs).head = s.head := rfl
@[simp] theorem withPresentedT_headGray : (s.withPresented .t cs).headGray = s.headGray := rfl
@[simp] theorem withPresentedT_tailW : (s.withPresented .t cs).tailW = s.tailW := rfl
@[simp] theorem withPresentedT_ovf : (s.withPresented .t cs).ovf = s.ovf := rfl
@[simp] theorem withPresentedT_wBusy : (s.withPresented .t cs).wBusy = s.wBusy := rfl
@[simp] theorem withPresentedT_wPdata : (s.withPresented .t cs).wPdata = s.wPdata := rfl
@[simp] theorem withPresentedT_wAck : (s.withPresented .t cs).wAck = s.wAck := rfl
@[simp] theorem withPresentedT_wStatus : (s.withPresented .t cs).wStatus = s.wStatus := rfl
@[simp] theorem withPresentedT_wRdata : (s.withPresented .t cs).wRdata = s.wRdata := rfl
@[simp] theorem withPresentedT_mem : (s.withPresented .t cs).mem = s.mem := rfl
@[simp] theorem withPresentedT_tail : (s.withPresented .t cs).tail = s.tail := rfl
@[simp] theorem withPresentedT_tailGray : (s.withPresented .t cs).tailGray = s.tailGray := rfl
@[simp] theorem withPresentedT_headR : (s.withPresented .t cs).headR = s.headR := rfl
@[simp] theorem withPresentedT_rAck : (s.withPresented .t cs).rAck = s.rAck := rfl
@[simp] theorem withPresentedT_rStatus : (s.withPresented .t cs).rStatus = s.rStatus := rfl
@[simp] theorem withPresentedT_rRdata : (s.withPresented .t cs).rRdata = s.rRdata := rfl
@[simp] theorem withPresentedT_count : (s.withPresented .t cs).count = s.count := rfl
@[simp] theorem withPresentedT_tBusy : (s.withPresented .t cs).tBusy = s.tBusy := rfl
@[simp] theorem withPresentedT_tTarget : (s.withPresented .t cs).tTarget = s.tTarget := rfl
@[simp] theorem withPresentedT_tAck : (s.withPresented .t cs).tAck = s.tAck := rfl
@[simp] theorem withPresentedT_tStatus : (s.withPresented .t cs).tStatus = s.tStatus := rfl
@[simp] theorem withPresentedT_tRdata : (s.withPresented .t cs).tRdata = s.tRdata := rfl
@[simp] theorem withPresentedT_history : (s.withPresented .t cs).history = s.history := rfl
@[simp] theorem withPresentedT_wCmds : (s.withPresented .t cs).wCmds = s.wCmds := rfl
@[simp] theorem withPresentedT_rCmds : (s.withPresented .t cs).rCmds = s.rCmds := rfl
@[simp] theorem withPresentedT_tCmds : (s.withPresented .t cs).tCmds = cs := rfl
@[simp] theorem withPresentedT_sched : (s.withPresented .t cs).sched = s.sched := rfl

end withPresentedT

section resetStep

variable (s : State)

@[simp] theorem resetStep_cfg : s.resetStep.cfg = s.cfg := rfl
@[simp] theorem resetStep_head : s.resetStep.head = 0 := rfl
@[simp] theorem resetStep_headGray : s.resetStep.headGray = 0 := rfl
@[simp] theorem resetStep_tailW : s.resetStep.tailW = 0 := rfl
@[simp] theorem resetStep_ovf : s.resetStep.ovf = 0 := rfl
@[simp] theorem resetStep_wBusy : s.resetStep.wBusy = false := rfl
@[simp] theorem resetStep_wPdata : s.resetStep.wPdata = 0 := rfl
@[simp] theorem resetStep_wAck : s.resetStep.wAck = false := rfl
@[simp] theorem resetStep_wStatus : s.resetStep.wStatus = 0 := rfl
@[simp] theorem resetStep_wRdata : s.resetStep.wRdata = 0 := rfl
@[simp] theorem resetStep_mem : s.resetStep.mem = [] := rfl
@[simp] theorem resetStep_tail : s.resetStep.tail = 0 := rfl
@[simp] theorem resetStep_tailGray : s.resetStep.tailGray = 0 := rfl
@[simp] theorem resetStep_headR : s.resetStep.headR = 0 := rfl
@[simp] theorem resetStep_rAck : s.resetStep.rAck = false := rfl
@[simp] theorem resetStep_rStatus : s.resetStep.rStatus = 0 := rfl
@[simp] theorem resetStep_rRdata : s.resetStep.rRdata = 0 := rfl
@[simp] theorem resetStep_count : s.resetStep.count = 0 := rfl
@[simp] theorem resetStep_tBusy : s.resetStep.tBusy = false := rfl
@[simp] theorem resetStep_tTarget : s.resetStep.tTarget = 0 := rfl
@[simp] theorem resetStep_tAck : s.resetStep.tAck = false := rfl
@[simp] theorem resetStep_tStatus : s.resetStep.tStatus = 0 := rfl
@[simp] theorem resetStep_tRdata : s.resetStep.tRdata = 0 := rfl
@[simp] theorem resetStep_history : s.resetStep.history = s.history ++ [.reset] := rfl
@[simp] theorem resetStep_wCmds : s.resetStep.wCmds = s.wCmds := rfl
@[simp] theorem resetStep_rCmds : s.resetStep.rCmds = s.rCmds := rfl
@[simp] theorem resetStep_tCmds : s.resetStep.tCmds = s.tCmds := rfl
@[simp] theorem resetStep_sched : s.resetStep.sched = s.sched := rfl

end resetStep

section resetWith

variable (c : Config)

@[simp] theorem resetWith_cfg : (State.resetWith c).cfg = c := rfl
@[simp] theorem resetWith_head : (State.resetWith c).head = 0 := rfl
@[simp] theorem resetWith_headGray : (State.resetWith c).headGray = 0 := rfl
@[simp] theorem resetWith_tailW : (State.resetWith c).tailW = 0 := rfl
@[simp] theorem resetWith_ovf : (State.resetWith c).ovf = 0 := rfl
@[simp] theorem resetWith_wBusy : (State.resetWith c).wBusy = false := rfl
@[simp] theorem resetWith_wPdata : (State.resetWith c).wPdata = 0 := rfl
@[simp] theorem resetWith_wAck : (State.resetWith c).wAck = false := rfl
@[simp] theorem resetWith_wStatus : (State.resetWith c).wStatus = 0 := rfl
@[simp] theorem resetWith_wRdata : (State.resetWith c).wRdata = 0 := rfl
@[simp] theorem resetWith_mem : (State.resetWith c).mem = [] := rfl
@[simp] theorem resetWith_tail : (State.resetWith c).tail = 0 := rfl
@[simp] theorem resetWith_tailGray : (State.resetWith c).tailGray = 0 := rfl
@[simp] theorem resetWith_headR : (State.resetWith c).headR = 0 := rfl
@[simp] theorem resetWith_rAck : (State.resetWith c).rAck = false := rfl
@[simp] theorem resetWith_rStatus : (State.resetWith c).rStatus = 0 := rfl
@[simp] theorem resetWith_rRdata : (State.resetWith c).rRdata = 0 := rfl
@[simp] theorem resetWith_count : (State.resetWith c).count = 0 := rfl
@[simp] theorem resetWith_tBusy : (State.resetWith c).tBusy = false := rfl
@[simp] theorem resetWith_tTarget : (State.resetWith c).tTarget = 0 := rfl
@[simp] theorem resetWith_tAck : (State.resetWith c).tAck = false := rfl
@[simp] theorem resetWith_tStatus : (State.resetWith c).tStatus = 0 := rfl
@[simp] theorem resetWith_tRdata : (State.resetWith c).tRdata = 0 := rfl
@[simp] theorem resetWith_history : (State.resetWith c).history = [] := rfl
@[simp] theorem resetWith_wCmds : (State.resetWith c).wCmds = [] := rfl
@[simp] theorem resetWith_rCmds : (State.resetWith c).rCmds = [] := rfl
@[simp] theorem resetWith_tCmds : (State.resetWith c).tCmds = [] := rfl
@[simp] theorem resetWith_sched : (State.resetWith c).sched = [] := rfl

end resetWith

end Sys2Proof.Machine
end

