-- ==== Sys2Proof/Laws/Effects.lean ====
section
/-! SUPPORT. What a step can do, said once: one case per shape of effect of a command (`ExecEffect`) and of an agent's
step (`AgentEffect`), with the guard under which it happens; and how a schedule slot is made of them. -/

namespace Sys2Proof.Machine

/-- What a command can do when it answers a next state. -/
inductive ExecEffect (s : State) : Instr → State → Prop
  | turnedAwayW {i} (hp : i.port? = some .w) (hb : s.wBusy = true) : ExecEffect s i s
  | turnedAwayT {i} (hp : i.port? = some .t) (hb : s.tBusy = true) : ExecEffect s i s
  | doneW {i} (m : Mnemonic) (st : Status) (rd : Option Word64) (hp : i.port? = some .w) (hm : i.mnemonic? = some m)
      (hn : m ≠ .push) (hn' : m ≠ .pushBlocking) (hn'' : m ≠ .pop) (hst : st = .ok ∨ st = .illegal)
      (hr : s.wBusy = false) : ExecEffect s i (s.completeW m st rd)
  | dropped (d : Word64) (hf : s.fullW = true) (hr : s.wBusy = false) :
      ExecEffect s (.push d) ({ s with ovf := s.ovf + 1 }.completeW .push .full none)
  | pushed (d : Word64) (hf : s.fullW = false) (hr : s.wBusy = false) :
      ExecEffect s (.push d) ((s.pushItem (itemOperand s.cfg d)).completeW .push .ok none)
  | pushedAtOnce (d : Word64) (hf : s.fullW = false) (hr : s.wBusy = false) :
      ExecEffect s (.pushBlocking d) ((s.pushItem (itemOperand s.cfg d)).completeW .pushBlocking .ok none)
  | waitsW (d : Word64) (hf : s.fullW = true) (hr : s.wBusy = false) :
      ExecEffect s (.pushBlocking d) (s.waitW (itemOperand s.cfg d))
  | doneR {i} (m : Mnemonic) (st : Status) (rd : Option Word64) (hp : i.port? = some .r) (hm : i.mnemonic? = some m)
      (hn : m ≠ .push) (hn' : m ≠ .pushBlocking) (hn'' : m ≠ .pop) (hst : st = .ok ∨ st = .illegal) :
      ExecEffect s i (s.completeR m st rd)
  | popEmpty (he : s.emptyR = true) : ExecEffect s .pop (s.completeR .pop .empty none)
  | popped (v : BitVec s.cfg.W) (he : s.emptyR = false) (hv : s.mem.read s.tail.toNat = some v) :
      ExecEffect s .pop (s.popItem.completeR .pop .ok (some (zext64 v)))
  | doneT {i} (m : Mnemonic) (st : Status) (rd : Option Word64) (hp : i.port? = some .t) (hm : i.mnemonic? = some m)
      (hn : m ≠ .push) (hn' : m ≠ .pushBlocking) (hn'' : m ≠ .pop)
      (hst : st = .ok ∨ st = .illegal ∨ st = .divZero) (hr : s.tBusy = false) : ExecEffect s i (s.completeT m st rd)
  | cleared (hr : s.tBusy = false) : ExecEffect s .init ({ s with count := 0 }.completeT .init .ok none)
  | waitsT (target : Word64) (hc : s.reached target = false) (hr : s.tBusy = false) :
      ExecEffect s (.sleepUntil target) (s.waitT target)

theorem issueW_next {s t : State} {k : State → Result} (h : issueW s k = .next t) :
    (s.wBusy = true ∧ t = s) ∨ (s.wBusy = false ∧ k s = .next t) := by
  unfold issueW State.wReady at h
  cases hb : s.wBusy <;> simp [hb] at h
  · exact .inr ⟨rfl, h⟩
  · exact .inl ⟨rfl, h.symm⟩

theorem issueT_next {s t : State} {k : State → Result} (h : issueT s k = .next t) :
    (s.tBusy = true ∧ t = s) ∨ (s.tBusy = false ∧ k s = .next t) := by
  unfold issueT State.tReady at h
  cases hb : s.tBusy <;> simp [hb] at h
  · exact .inr ⟨rfl, h⟩
  · exact .inl ⟨rfl, h.symm⟩

@[simp] theorem issueR_eq (s : State) (k : State → Result) : issueR s k = k s := rfl

@[simp] theorem issueW_ready {s : State} (h : s.wBusy = false) (k : State → Result) : issueW s k = k s := by
  simp [issueW, State.wReady, h]

@[simp] theorem issueT_ready {s : State} (h : s.tBusy = false) (k : State → Result) : issueT s k = k s := by
  simp [issueT, State.tReady, h]

@[simp] theorem issueW_busy {s : State} (h : s.wBusy = true) (k : State → Result) : issueW s k = .next s := by
  simp [issueW, State.wReady, h]

@[simp] theorem issueT_busy {s : State} (h : s.tBusy = true) (k : State → Result) : issueT s k = .next s := by
  simp [issueT, State.tReady, h]

/-- A W command that only completes. -/
theorem effect_of_doneW {s t : State} {i : Instr} {m : Mnemonic} {st : Status} {rd : State → Option Word64}
    (h : issueW s (fun s => .next (s.completeW m st (rd s))) = .next t) (hp : i.port? = some .w)
    (hm : i.mnemonic? = some m) (hst : st = .ok ∨ st = .illegal)
    (hn : m ≠ .push ∧ m ≠ .pushBlocking ∧ m ≠ .pop := by decide) : ExecEffect s i t := by
  rcases issueW_next h with ⟨hb, rfl⟩ | ⟨hr, h⟩
  · exact .turnedAwayW hp hb
  · obtain rfl : s.completeW m st (rd s) = t := by simpa using h
    exact .doneW m st _ hp hm hn.1 hn.2.1 hn.2.2 hst hr

/-- An R command that only completes. -/
theorem effect_of_doneR {s t : State} {i : Instr} {m : Mnemonic} {st : Status} {rd : State → Option Word64}
    (h : issueR s (fun s => .next (s.completeR m st (rd s))) = .next t) (hp : i.port? = some .r)
    (hm : i.mnemonic? = some m) (hst : st = .ok ∨ st = .illegal)
    (hn : m ≠ .push ∧ m ≠ .pushBlocking ∧ m ≠ .pop := by decide) : ExecEffect s i t := by
  obtain rfl : s.completeR m st (rd s) = t := by simpa using h
  exact .doneR m st _ hp hm hn.1 hn.2.1 hn.2.2 hst

/-- A T command that only completes. -/
theorem effect_of_doneT {s t : State} {i : Instr} {m : Mnemonic} {st : Status} {rd : State → Option Word64}
    (h : issueT s (fun s => .next (s.completeT m st (rd s))) = .next t) (hp : i.port? = some .t)
    (hm : i.mnemonic? = some m) (hst : st = .ok ∨ st = .illegal ∨ st = .divZero)
    (hn : m ≠ .push ∧ m ≠ .pushBlocking ∧ m ≠ .pop := by decide) : ExecEffect s i t := by
  rcases issueT_next h with ⟨hb, rfl⟩ | ⟨hr, h⟩
  · exact .turnedAwayT hp hb
  · obtain rfl : s.completeT m st (rd s) = t := by simpa using h
    exact .doneT m st _ hp hm hn.1 hn.2.1 hn.2.2 hst hr

/-- Everything a command can do. -/
theorem exec_effect {i : Instr} {s t : State} (h : exec i s = .next t) : ExecEffect s i t := by
  cases i with
  | wNop => exact effect_of_doneW (rd := fun _ => none) h rfl rfl (.inl rfl)
  | push d =>
    simp only [exec, execPush] at h
    rcases issueW_next h with ⟨hb, rfl⟩ | ⟨hr, h⟩
    · exact .turnedAwayW rfl hb
    · cases hf : s.fullW <;> simp [hf] at h <;> subst h
      · exact .pushed d hf hr
      · exact .dropped d hf hr
  | pushBlocking d =>
    simp only [exec, execPushBlocking] at h
    rcases issueW_next h with ⟨hb, rfl⟩ | ⟨hr, h⟩
    · exact .turnedAwayW rfl hb
    · cases hf : s.fullW <;> simp [hf] at h <;> subst h
      · exact .pushedAtOnce d hf hr
      · exact .waitsW d hf hr
  | wFull => exact effect_of_doneW (rd := fun s => some (boolResult s.fullW)) h rfl rfl (.inl rfl)
  | wSize => exact effect_of_doneW (rd := fun s => some (zext64 s.sizeW)) h rfl rfl (.inl rfl)
  | wEmpty => exact effect_of_doneW (rd := fun s => some (boolResult s.emptyW)) h rfl rfl (.inl rfl)
  | wOvf => exact effect_of_doneW (rd := fun s => some (zext64 s.ovf)) h rfl rfl (.inl rfl)
  | wReserved111 => exact effect_of_doneW (rd := fun _ => none) h rfl rfl (.inr rfl)
  | rNop => exact effect_of_doneR (rd := fun _ => none) h rfl rfl (.inl rfl)
  | pop =>
    simp only [exec, execPop, issueR_eq] at h
    cases he : s.emptyR
    · cases hv : s.mem.read s.tail.toNat with
      | none => simp [he, hv] at h
      | some v =>
        simp [he, hv] at h
        subst h
        exact .popped v he hv
    · simp [he] at h
      subst h
      exact .popEmpty he
  | rReserved010 => exact effect_of_doneR (rd := fun _ => none) h rfl rfl (.inr rfl)
  | rFull => exact effect_of_doneR (rd := fun s => some (boolResult s.fullR)) h rfl rfl (.inl rfl)
  | rSize => exact effect_of_doneR (rd := fun s => some (zext64 s.sizeR)) h rfl rfl (.inl rfl)
  | rEmpty => exact effect_of_doneR (rd := fun s => some (boolResult s.emptyR)) h rfl rfl (.inl rfl)
  | rReserved110 => exact effect_of_doneR (rd := fun _ => none) h rfl rfl (.inr rfl)
  | rReserved111 => exact effect_of_doneR (rd := fun _ => none) h rfl rfl (.inr rfl)
  | tNop => exact effect_of_doneT (rd := fun _ => none) h rfl rfl (.inl rfl)
  | now => exact effect_of_doneT (rd := fun s => some (zext64 s.count)) h rfl rfl (.inl rfl)
  | elapsed a b =>
    exact effect_of_doneT (rd := fun s => some (zext64 (tickOperand s.cfg b - tickOperand s.cfg a))) h rfl rfl (.inl rfl)
  | t2d a b =>
    exact effect_of_doneT (rd := fun s => some (zext64 (tickOperand s.cfg a) * zext64 (periodOperand b))) h rfl rfl (.inl rfl)
  | d2t a b =>
    simp only [exec, execD2t] at h
    rcases issueT_next h with ⟨hb, rfl⟩ | ⟨hr, h⟩
    · exact .turnedAwayT rfl hb
    · split at h <;> (obtain rfl := Host.Outcome.next.inj h)
      · exact .doneT _ _ _ rfl rfl (by decide) (by decide) (by decide) (.inr (.inr rfl)) hr
      · exact .doneT _ _ _ rfl rfl (by decide) (by decide) (by decide) (.inl rfl) hr
  | sleepUntil a =>
    simp only [exec, execSleepUntil] at h
    rcases issueT_next h with ⟨hb, rfl⟩ | ⟨hr, h⟩
    · exact .turnedAwayT rfl hb
    · cases hc : s.reached a <;> simp [hc] at h <;> subst h
      · exact .waitsT a hc hr
      · exact .doneT _ _ _ rfl rfl (by decide) (by decide) (by decide) (.inl rfl) hr
  | init =>
    simp only [exec, execInit] at h
    rcases issueT_next h with ⟨hb, rfl⟩ | ⟨hr, h⟩
    · exact .turnedAwayT rfl hb
    · obtain rfl := Host.Outcome.next.inj h
      exact .cleared hr
  | tReserved111 => exact effect_of_doneT (rd := fun _ => none) h rfl rfl (.inr (.inl rfl))
  | noPort op => simp [exec, execNoPort] at h

/-- Everything a requester's step can do: nothing, or the next presented command runs. -/
theorem requesterStep_next {p : Port} {s t : State} (h : requesterStep p s = .next t) :
    t = s ∨ ∃ c rest i, s.presented p = c :: rest ∧ s.ready p = true ∧ decode c = .ok i ∧ i.port? = some p ∧
      ExecEffect (s.withPresented p rest) i t := by
  unfold requesterStep at h
  split at h
  · exact .inl (Host.Outcome.next.inj h).symm
  · next c rest hc =>
    split at h
    · next hr =>
      split at h
      · cases h
      · next i hi =>
        split at h
        · next hp => exact .inr ⟨c, rest, i, hc, hr, hi, hp, exec_effect h⟩
        · cases h
    · exact .inl (Host.Outcome.next.inj h).symm

/-- What an agent's step can do when it answers a next state. -/
inductive AgentEffect (s : State) : Agent → State → Prop
  | nothing {a} : AgentEffect s a s
  | issues {a} (p : Port) (c : Cmd) (rest : List Cmd) (i : Instr) (t : State)
      (ha : a = (match p with | .w => Agent.wreq | .r => .rreq | .t => .treq))
      (hc : s.presented p = c :: rest) (hr : s.ready p = true) (hd : decode c = .ok i) (hp : i.port? = some p)
      (he : ExecEffect (s.withPresented p rest) i t) : AgentEffect s a t
  | wengCompletes (h : s.wengEnabled = true) : AgentEffect s .weng s.wengComplete
  | tengCompletes (h : s.tengEnabled = true) : AgentEffect s .teng s.tengComplete
  | syncH (h : s.headR ≠ s.head) : AgentEffect s .syncH s.syncHStep
  | syncT (h : s.tailW ≠ s.tail) : AgentEffect s .syncT s.syncTStep
  | tick (h : s.tengEnabled = false) : AgentEffect s .tick s.tickStep
  | rst : AgentEffect s .rst s.resetStep

/-- Everything an agent's step can do. -/
theorem runAgent_effect {a : Agent} {s t : State} (h : runAgent a s = .next t) : AgentEffect s a t := by
  cases a with
  | wreq =>
    rcases requesterStep_next h with rfl | ⟨c, rest, i, hc, hr, hd, hp, he⟩
    · exact .nothing
    · exact .issues .w c rest i t rfl hc hr hd hp he
  | rreq =>
    rcases requesterStep_next h with rfl | ⟨c, rest, i, hc, hr, hd, hp, he⟩
    · exact .nothing
    · exact .issues .r c rest i t rfl hc hr hd hp he
  | treq =>
    rcases requesterStep_next h with rfl | ⟨c, rest, i, hc, hr, hd, hp, he⟩
    · exact .nothing
    · exact .issues .t c rest i t rfl hc hr hd hp he
  | weng =>
    simp only [runAgent] at h
    split at h <;> obtain rfl := Host.Outcome.next.inj h
    · next hw => exact .wengCompletes hw
    · exact .nothing
  | teng =>
    simp only [runAgent] at h
    split at h <;> obtain rfl := Host.Outcome.next.inj h
    · next hw => exact .tengCompletes hw
    · exact .nothing
  | syncH =>
    simp only [runAgent] at h
    split at h <;> obtain rfl := Host.Outcome.next.inj h
    · exact .nothing
    · next hw => exact .syncH hw
  | syncT =>
    simp only [runAgent] at h
    split at h <;> obtain rfl := Host.Outcome.next.inj h
    · exact .nothing
    · next hw => exact .syncT hw
  | tick =>
    simp only [runAgent] at h
    split at h <;> obtain rfl := Host.Outcome.next.inj h
    · exact .nothing
    · next hw => exact .tick (by simpa using hw)
  | rst =>
    obtain rfl := Host.Outcome.next.inj h
    exact .rst

/-- Everything one act can do. -/
theorem runAct_effect {a : Act} {s t : State} (h : runAct a s = .next t) :
    (∃ g, a = .agent g ∧ AgentEffect s g t) ∨ (∃ p, a = .quiet p ∧ t = s.ackLow p) ∨
      ∃ p cs, a = .present p cs ∧ t = s.withPresented p cs := by
  cases a with
  | agent g => exact .inl ⟨g, rfl, runAgent_effect h⟩
  | quiet p => exact .inr (.inl ⟨p, rfl, (Host.Outcome.next.inj h).symm⟩)
  | present p cs => exact .inr (.inr ⟨p, cs, rfl, (Host.Outcome.next.inj h).symm⟩)

/-- The acts of a list run one after another. -/
theorem runActs_cons_next {a : Act} {as : List Act} {s t : State} (h : runActs (a :: as) s = .next t) :
    ∃ u, runAct a s = .next u ∧ runActs as u = .next t := by
  unfold runActs at h
  split at h
  · next u hu => exact ⟨u, hu, h⟩
  · cases h
  · cases h

/-- A relation that every act keeps, reflexive and transitive, holds across a list of acts. -/
theorem runActs_induction {R : State → State → Prop} (hrefl : ∀ s, R s s) (htrans : ∀ {s u t}, R s u → R u t → R s t)
    (hact : ∀ {a s t}, runAct a s = .next t → R s t) :
    ∀ {as : List Act} {s t : State}, runActs as s = .next t → R s t
  | [], s, t, h => by
    obtain rfl := Host.Outcome.next.inj h
    exact hrefl _
  | _ :: _, _, _, h => by
    obtain ⟨u, hu, ht⟩ := runActs_cons_next h
    exact htrans (hact hu) (runActs_induction hrefl htrans hact ht)

/-- A property of one state that every act keeps is kept by a list of acts. -/
theorem runActs_keeps {P : State → Prop} (hact : ∀ {a s t}, P s → runAct a s = .next t → P t)
    {as : List Act} {s t : State} (hs : P s) (h : runActs as s = .next t) : P t :=
  runActs_induction (R := fun s t => P s → P t) (fun _ h => h) (fun f g h => g (f h)) (fun h hs => hact hs h) h hs

/-- Everything a step can do: nothing, or the acts of the next slot of the schedule. -/
theorem step_next {s t : State} (h : step s = .next t) :
    (s.sched = [] ∧ t = s) ∨
      ∃ x rest, s.sched = x :: rest ∧ runActs (x.acts { s with sched := rest }) { s with sched := rest } = .next t := by
  unfold step at h
  split at h
  · next hs => exact .inl ⟨hs, (Host.Outcome.next.inj h).symm⟩
  · next x rest hs => exact .inr ⟨x, rest, hs, h⟩

/-- A property of one state that every act keeps, and that does not read the schedule, is kept by a step. -/
theorem step_keeps {P : State → Prop} (hsched : ∀ s xs, P s → P { s with sched := xs })
    (hact : ∀ {a s t}, P s → runAct a s = .next t → P t) {s t : State} (hs : P s) (h : step s = .next t) : P t := by
  rcases step_next h with ⟨-, rfl⟩ | ⟨x, rest, -, h⟩
  · exact hs
  · exact runActs_keeps hact (hsched _ _ hs) h

end Sys2Proof.Machine
end

