-- ==== Sys2Proof/Laws/Flags.lean ====
section
/-! SUPPORT. What each computed condition says, once, and results as natural numbers. -/

namespace Sys2Proof.Machine

theorem fullW_eq_true {s : State} : s.fullW = true ↔ s.head + 1 = s.tailW := beq_iff_eq

theorem fullW_eq_false {s : State} : s.fullW = false ↔ s.head + 1 ≠ s.tailW := beq_eq_false_iff_ne

theorem emptyW_eq_true {s : State} : s.emptyW = true ↔ s.head = s.tailW := beq_iff_eq

theorem fullR_eq_true {s : State} : s.fullR = true ↔ s.headR + 1 = s.tail := beq_iff_eq

theorem emptyR_eq_true {s : State} : s.emptyR = true ↔ s.tail = s.headR := beq_iff_eq

theorem emptyR_eq_false {s : State} : s.emptyR = false ↔ s.tail ≠ s.headR := beq_eq_false_iff_ne

/-- `zext_64` as a number: values of at most 64 bits keep theirs (00_scope.md R13). -/
theorem zext64_toNat {n : Nat} (v : BitVec n) (h : n ≤ 64) : (zext64 v).toNat = v.toNat := by
  have hv := v.isLt
  have hp : 2 ^ n ≤ 2 ^ 64 := Nat.pow_le_pow_right (by decide) h
  simp only [zext64, BitVec.toNat_setWidth]
  exact Nat.mod_eq_of_lt (by omega)

/-- The widths of an admitted configuration (00_scope.md R12). -/
theorem config_bounds (c : Config) : c.A ≤ 32 ∧ 1 ≤ c.W ∧ c.W ≤ 64 ∧ 2 ≤ c.S ∧ 1 ≤ c.CW ∧ c.CW ≤ 64 := by
  have h := c.ok
  simp only [Config.admits, Bool.and_eq_true, decide_eq_true_eq] at h
  obtain ⟨⟨⟨⟨⟨h1, h2⟩, h3⟩, h4⟩, h5⟩, h6⟩ := h
  exact ⟨h1, h2, h3, h4, h5, h6⟩

/-- The SLEEP_UNTIL comparison as numbers (42_counter_ops.md R176). -/
theorem reached_iff {s : State} {target : Word64} : s.reached target = true ↔ target.toNat ≤ s.count.toNat := by
  simp [State.reached, zext64_toNat s.count (config_bounds s.cfg).2.2.2.2.2]

theorem reached_eq_false {s : State} {target : Word64} : s.reached target = false ↔ s.count.toNat < target.toNat := by
  rw [← Bool.not_eq_true, reached_iff, Nat.not_le]

theorem wengEnabled_iff {s : State} : s.wengEnabled = true ↔ s.wBusy = true ∧ s.head + 1 ≠ s.tailW := by
  rw [State.wengEnabled, Bool.and_eq_true, Bool.not_eq_true', fullW_eq_false]

theorem tengEnabled_iff {s : State} :
    s.tengEnabled = true ↔ s.tBusy = true ∧ s.tTarget.toNat ≤ s.count.toNat := by
  rw [State.tengEnabled, Bool.and_eq_true, reached_iff]

end Sys2Proof.Machine
end

