-- ==== Sys2Proof/Laws/History.lean ====
section
/-! SUPPORT. The history: how the counts of 20_memory.md R71 and the completions of a port grow. -/

namespace Sys2Proof.Machine

@[simp] theorem countSinceReset_nil (k : Completion → Bool) : countSinceReset k [] = 0 := rfl

@[simp] theorem countSinceReset_completed (k : Completion → Bool) (h : List Event) (c : Completion) :
    countSinceReset k (h ++ [.completed c]) = if k c then countSinceReset k h + 1 else countSinceReset k h := by
  simp [countSinceReset, List.foldl_append]

@[simp] theorem countSinceReset_reset (k : Completion → Bool) (h : List Event) :
    countSinceReset k (h ++ [.reset]) = 0 := by
  simp [countSinceReset, List.foldl_append]

@[simp] theorem completionsOf_append (p : Port) (h h' : List Event) :
    completionsOf p (h ++ h') = completionsOf p h ++ completionsOf p h' := by
  simp [completionsOf, List.filterMap_append]

@[simp] theorem completionsOf_reset (p : Port) : completionsOf p [.reset] = [] := rfl

@[simp] theorem completionsOf_completed (p : Port) (c : Completion) :
    completionsOf p [.completed c] = if c.port = p then [c] else [] := by
  by_cases h : c.port = p <;> simp [completionsOf, h]

end Sys2Proof.Machine
end

