-- ==== Sys2Proof/Laws/Index.lean ====
section
/-! SUPPORT. Index arithmetic modulo N (00_scope.md R14) as case distinctions on natural numbers. -/

namespace Sys2Proof.Machine

theorem toNat_succ_index {n : Nat} (x : BitVec n) :
    (x + 1).toNat = if x.toNat + 1 = 2 ^ n then 0 else x.toNat + 1 := by
  have hx := x.isLt
  rw [BitVec.toNat_add, show (1 : BitVec n).toNat = 1 % 2 ^ n from BitVec.toNat_ofNat 1 n, Nat.add_mod_mod]
  split
  · next h => rw [h, Nat.mod_self]
  · exact Nat.mod_eq_of_lt (by omega)

theorem toNat_distance {n : Nat} (x y : BitVec n) :
    (x - y).toNat = if y.toNat ≤ x.toNat then x.toNat - y.toNat else 2 ^ n + x.toNat - y.toNat := by
  have hx := x.isLt
  have hy := y.isLt
  rw [BitVec.toNat_sub]
  split
  · rw [show 2 ^ n - y.toNat + x.toNat = x.toNat - y.toNat + 2 ^ n by omega, Nat.add_mod_right]
    exact Nat.mod_eq_of_lt (by omega)
  · rw [Nat.mod_eq_of_lt (by omega)]
    omega

theorem index_eq_iff {n : Nat} (x y : BitVec n) : x = y ↔ x.toNat = y.toNat := BitVec.toNat_inj.symm

theorem toNat_add_index {n : Nat} (x : BitVec n) (k : Nat) (hk : k < 2 ^ n) :
    (x + BitVec.ofNat n k).toNat = if x.toNat + k < 2 ^ n then x.toNat + k else x.toNat + k - 2 ^ n := by
  have hx := x.isLt
  rw [BitVec.toNat_add, BitVec.toNat_ofNat, Nat.mod_eq_of_lt hk]
  split
  · exact Nat.mod_eq_of_lt (by omega)
  · rw [show x.toNat + k = x.toNat + k - 2 ^ n + 2 ^ n by omega, Nat.add_mod_right]
    simpa using Nat.mod_eq_of_lt (by omega)

end Sys2Proof.Machine
end

