-- ==== Sys2Proof/Laws/Memory.lean ====
section
/-! SUPPORT. The slot storage: a read after a write, and the canonical form. -/

namespace Sys2Proof.Machine

@[simp] theorem read_nil {w : Nat} (i : Nat) : Memory.read ([] : Memory w) i = none := rfl

/-- Everything a write does, through the read of one slot. -/
theorem read_write {w : Nat} (m : Memory w) (i j : Nat) (v : BitVec w) :
    (m.write i v).read j = if j = i then some v else m.read j := by
  induction m with
  | nil => simp [Memory.write, Memory.read]
  | cons cell rest ih =>
    obtain ⟨k, u⟩ := cell
    simp only [Memory.write]
    split
    · simp [Memory.read]
    · split
      · next h => subst h; simp only [Memory.read]; split <;> simp_all
      · simp only [Memory.read, ih]; split <;> split <;> simp_all

theorem mem_write {w : Nat} {m : Memory w} {i : Nat} {v : BitVec w} {cell : Nat × BitVec w}
    (h : cell ∈ m.write i v) : cell = (i, v) ∨ cell ∈ m := by
  induction m with
  | nil => simpa [Memory.write] using h
  | cons c rest ih =>
    simp only [Memory.write] at h
    split at h
    · simpa using h
    · split at h
      · rcases List.mem_cons.mp h with h | h
        · exact .inl h
        · exact .inr (List.mem_cons_of_mem _ h)
      · rcases List.mem_cons.mp h with h | h
        · exact .inr (h ▸ List.mem_cons_self)
        · exact (ih h).imp id (List.mem_cons_of_mem _)

theorem wf_cons {w : Nat} {i : Nat} {v : BitVec w} {m : Memory w} :
    Memory.wf ((i, v) :: m) = true ↔ (∀ cell ∈ m, i < cell.1) ∧ Memory.wf m = true := by
  induction m generalizing i v with
  | nil => simp [Memory.wf]
  | cons cell rest ih =>
    obtain ⟨j, u⟩ := cell
    simp only [Memory.wf, Bool.and_eq_true, decide_eq_true_eq, List.mem_cons, forall_eq_or_imp]
    constructor
    · rintro ⟨h, hw⟩
      exact ⟨⟨h, fun c hc => Nat.lt_trans h ((ih.mp hw).1 c hc)⟩, hw⟩
    · rintro ⟨⟨h, -⟩, hw⟩
      exact ⟨h, hw⟩

/-- A write keeps the canonical form. -/
theorem write_wf {w : Nat} {m : Memory w} (h : m.wf = true) (i : Nat) (v : BitVec w) : (m.write i v).wf = true := by
  induction m with
  | nil => rfl
  | cons cell rest ih =>
    obtain ⟨j, u⟩ := cell
    obtain ⟨hlt, hw⟩ := wf_cons.mp h
    simp only [Memory.write]
    split
    · next hij =>
      refine wf_cons.mpr ⟨fun c hc => ?_, h⟩
      rcases List.mem_cons.mp hc with rfl | hc
      · exact hij
      · exact Nat.lt_trans hij (hlt c hc)
    · split
      · next hij => subst hij; exact wf_cons.mpr ⟨hlt, hw⟩
      · refine wf_cons.mpr ⟨fun c hc => ?_, ih hw⟩
        rcases mem_write hc with rfl | hc
        · show j < i; omega
        · exact hlt c hc

/-- A write inside the space keeps every listed slot inside it (20_memory.md R60). -/
theorem write_range {w N : Nat} {m : Memory w} (h : ∀ cell ∈ m, cell.1 < N) {i : Nat} (hi : i < N) (v : BitVec w) :
    ∀ cell ∈ m.write i v, cell.1 < N := fun _ hc => (mem_write hc).elim (fun e => e ▸ hi) (h _)

end Sys2Proof.Machine
end

