-- ==== Sys2Proof/Laws/Invariant.lean ====
section
/-! SUPPORT. Each shared operation keeps the invariant of 20_memory.md R67 to R71 under its guard. -/

namespace Sys2Proof.Machine

theorem one_le_N (c : Config) : 1 ≤ c.N := Nat.one_le_two_pow

/-- `size = d2 + d3` (20_memory.md R67). -/
theorem size_eq {s : State} (h : s.d1 + s.d2 + s.d3 ≤ s.cfg.N - 1) : s.size.toNat = s.d2 + s.d3 := by
  simp only [State.d1, State.d2, State.d3, Config.N, State.size] at *
  have a1 := s.tail.isLt
  have a2 := s.headR.isLt
  have a3 := s.head.isLt
  have a4 := s.tailW.isLt
  simp only [toNat_distance] at *
  split_ifs at * <;> omega

/-- `size_w = d1 + d2 + d3` (20_memory.md R67). -/
theorem sizeW_eq {s : State} (h : s.d1 + s.d2 + s.d3 ≤ s.cfg.N - 1) : s.sizeW.toNat = s.d1 + s.d2 + s.d3 := by
  simp only [State.d1, State.d2, State.d3, Config.N, State.sizeW] at *
  have a1 := s.tail.isLt
  have a2 := s.headR.isLt
  have a3 := s.head.isLt
  have a4 := s.tailW.isLt
  simp only [toNat_distance] at *
  split_ifs at * <;> omega

/-- Full in the producer's view, as a size. -/
theorem fullW_iff (s : State) : s.fullW = true ↔ s.sizeW.toNat = s.cfg.N - 1 := by
  simp only [State.fullW, State.sizeW, Config.N, beq_iff_eq]
  have a3 := s.head.isLt
  have a4 := s.tailW.isLt
  rw [index_eq_iff]
  simp only [toNat_distance, toNat_succ_index] at *
  split_ifs at * <;> omega

/-- Empty in the consumer's view, as a distance. -/
theorem emptyR_iff (s : State) : s.emptyR = true ↔ s.d2 = 0 := by
  simp only [State.emptyR, State.d2, beq_iff_eq]
  have a3 := s.tail.isLt
  have a4 := s.headR.isLt
  rw [index_eq_iff]
  simp only [toNat_distance]
  split_ifs <;> omega

/-- One push or pop more in the counts, and no other change of them. -/
theorem pushes_pops_recorded (s : State) (p : Port) (m : Mnemonic) (st : Status) (rd : Option Word64) :
    countSinceReset Completion.isPush (s.recorded p m st rd) =
        (if st = .ok ∧ (m = .push ∨ m = .pushBlocking) then s.pushes + 1 else s.pushes) ∧
      countSinceReset Completion.isPop (s.recorded p m st rd) =
        (if st = .ok ∧ m = .pop then s.pops + 1 else s.pops) := by
  simp [State.recorded, Completion.isPush, Completion.isPop, State.pushes, State.pops]

/-- A W completion that is no successful push. -/
theorem inv_doneW {s : State} (h : s.Inv) (m : Mnemonic) (st : Status) (rd : Option Word64)
    (hst : st = .ok ∨ st = .full ∨ st = .illegal) (hpush : st = .ok → m ≠ .push ∧ m ≠ .pushBlocking ∧ m ≠ .pop) :
    (s.completeW m st rd).Inv where
  headGray := h.headGray
  tailGray := h.tailGray
  order := h.order
  memWf := h.memWf
  memRange := h.memRange
  arc := h.arc
  conserve := by
    have hc := h.conserve
    obtain ⟨h1, h2⟩ := pushes_pops_recorded s .w m st rd
    show countSinceReset _ (s.recorded .w m st rd) = countSinceReset _ (s.recorded .w m st rd) + s.size.toNat
    rw [h1, h2]
    rcases hst with rfl | rfl | rfl <;> simp_all
  headCounts := by
    obtain ⟨h1, -⟩ := pushes_pops_recorded s .w m st rd
    show s.head.toNat = countSinceReset _ (s.recorded .w m st rd) % s.cfg.N
    rw [h1, h.headCounts]
    rcases hst with rfl | rfl | rfl <;> simp_all
  wStatus := by rcases hst with rfl | rfl | rfl <;> simp [Status.code]
  rStatus := h.rStatus
  tStatus := h.tStatus

/-- An R completion that is no successful POP. -/
theorem inv_doneR {s : State} (h : s.Inv) (m : Mnemonic) (st : Status) (rd : Option Word64)
    (hst : st = .ok ∨ st = .empty ∨ st = .illegal) (hpop : st = .ok → m ≠ .push ∧ m ≠ .pushBlocking ∧ m ≠ .pop) :
    (s.completeR m st rd).Inv where
  headGray := h.headGray
  tailGray := h.tailGray
  order := h.order
  memWf := h.memWf
  memRange := h.memRange
  arc := h.arc
  conserve := by
    have hc := h.conserve
    obtain ⟨h1, h2⟩ := pushes_pops_recorded s .r m st rd
    show countSinceReset _ (s.recorded .r m st rd) = countSinceReset _ (s.recorded .r m st rd) + s.size.toNat
    rw [h1, h2]
    rcases hst with rfl | rfl | rfl <;> simp_all
  headCounts := by
    obtain ⟨h1, -⟩ := pushes_pops_recorded s .r m st rd
    show s.head.toNat = countSinceReset _ (s.recorded .r m st rd) % s.cfg.N
    rw [h1, h.headCounts]
    rcases hst with rfl | rfl | rfl <;> simp_all
  wStatus := h.wStatus
  rStatus := by rcases hst with rfl | rfl | rfl <;> simp [Status.code]
  tStatus := h.tStatus

/-- A T completion. -/
theorem inv_doneT {s : State} (h : s.Inv) (m : Mnemonic) (st : Status) (rd : Option Word64)
    (hst : st = .ok ∨ st = .illegal ∨ st = .divZero) (hm : m ≠ .push ∧ m ≠ .pushBlocking ∧ m ≠ .pop) :
    (s.completeT m st rd).Inv where
  headGray := h.headGray
  tailGray := h.tailGray
  order := h.order
  memWf := h.memWf
  memRange := h.memRange
  arc := h.arc
  conserve := by
    have hc := h.conserve
    obtain ⟨h1, h2⟩ := pushes_pops_recorded s .t m st rd
    show countSinceReset _ (s.recorded .t m st rd) = countSinceReset _ (s.recorded .t m st rd) + s.size.toNat
    rw [h1, h2]
    simp_all
  headCounts := by
    obtain ⟨h1, -⟩ := pushes_pops_recorded s .t m st rd
    show s.head.toNat = countSinceReset _ (s.recorded .t m st rd) % s.cfg.N
    rw [h1, h.headCounts]
    simp_all
  wStatus := h.wStatus
  rStatus := h.rStatus
  tStatus := by rcases hst with rfl | rfl | rfl <;> simp [Status.code]

/-- A state that differs from one with the invariant only in what the invariant does not read. -/
theorem inv_frame {s : State} (h : s.Inv) (ovf : BitVec 32) (wBusy : Bool) (wPdata : BitVec s.cfg.W) (wAck : Bool)
    (wRdata : Word64) (rAck : Bool) (rRdata : Word64) (count : BitVec s.cfg.CW) (tBusy : Bool) (tTarget : Word64)
    (tAck : Bool) (tRdata : Word64) (wCmds rCmds tCmds : List Cmd) (sched : List Slot) :
    State.Inv { s with
      ovf := ovf, wBusy := wBusy, wPdata := wPdata, wAck := wAck, wRdata := wRdata, rAck := rAck, rRdata := rRdata,
      count := count, tBusy := tBusy, tTarget := tTarget, tAck := tAck, tRdata := tRdata, wCmds := wCmds,
      rCmds := rCmds, tCmds := tCmds, sched := sched } where
  headGray := h.headGray
  tailGray := h.tailGray
  order := h.order
  memWf := h.memWf
  memRange := h.memRange
  arc := h.arc
  conserve := h.conserve
  headCounts := h.headCounts
  wStatus := h.wStatus
  rStatus := h.rStatus
  tStatus := h.tStatus

theorem inv_ackLow {s : State} (h : s.Inv) (p : Port) : (s.ackLow p).Inv := by
  cases p <;> exact inv_frame h _ _ _ _ _ _ _ _ _ _ _ _ _ _ _ _

theorem inv_withPresented {s : State} (h : s.Inv) (p : Port) (cs : List Cmd) : (s.withPresented p cs).Inv := by
  cases p <;> exact inv_frame h _ _ _ _ _ _ _ _ _ _ _ _ _ _ _ _

theorem inv_withSched {s : State} (h : s.Inv) (xs : List Slot) : State.Inv { s with sched := xs } :=
  inv_frame h _ _ _ _ _ _ _ _ _ _ _ _ _ _ _ _

/-- SYNC_T moves 1 from `d1` (20_memory.md R67). -/
theorem inv_syncT {s : State} (h : s.Inv) (hne : s.tailW ≠ s.tail) : s.syncTStep.Inv :=
  { h with
    order := by
      have ho := h.order
      simp only [State.d1, State.d2, State.d3, Config.N] at ho
      show (s.tail - (s.tailW + 1)).toNat + (s.headR - s.tail).toNat + (s.head - s.headR).toNat ≤ 2 ^ s.cfg.A - 1
      rw [Ne, index_eq_iff] at hne
      have a1 := s.tail.isLt
      have a2 := s.tailW.isLt
      simp only [toNat_distance, toNat_succ_index] at *
      split_ifs at * <;> omega }

/-- SYNC_H moves 1 from `d3` to `d2` (20_memory.md R67). -/
theorem inv_syncH {s : State} (h : s.Inv) (hne : s.headR ≠ s.head) : s.syncHStep.Inv :=
  { h with
    order := by
      have ho := h.order
      simp only [State.d1, State.d2, State.d3, Config.N] at ho
      show (s.tail - s.tailW).toNat + (s.headR + 1 - s.tail).toNat + (s.head - (s.headR + 1)).toNat ≤ 2 ^ s.cfg.A - 1
      rw [Ne, index_eq_iff] at hne
      have a1 := s.head.isLt
      have a2 := s.headR.isLt
      have a3 := s.tail.isLt
      simp only [toNat_distance, toNat_succ_index] at *
      split_ifs at * <;> omega }

/-- The occupied arc's slot counted past its end is `head`. -/
theorem arcSlot_size (s : State) : s.arcSlot s.size.toNat = s.head.toNat := by
  show (s.tail + BitVec.ofNat s.cfg.A (s.head - s.tail).toNat).toNat = s.head.toNat
  rw [BitVec.ofNat_toNat, BitVec.setWidth_eq, BitVec.add_comm, BitVec.sub_add_cancel]

/-- A successful push adds 1 to `d3` (20_memory.md R67) and its item to the occupied arc (R68). -/
theorem inv_push {s : State} (h : s.Inv) (hf : s.fullW = false) (v : BitVec s.cfg.W) {m : Mnemonic}
    (hm : m = .push ∨ m = .pushBlocking) : ((s.pushItem v).completeW m .ok none).Inv := by
  have ho := h.order
  have hN := one_le_N s.cfg
  have hw : s.sizeW.toNat ≠ s.cfg.N - 1 := fun e => by simp [(fullW_iff s).mpr e] at hf
  have hsw := sizeW_eq ho
  have hs := size_eq ho
  have hd3 : ((s.pushItem v).completeW m .ok none).d3 = s.d3 + 1 := by
    show (s.head + 1 - s.headR).toNat = (s.head - s.headR).toNat + 1
    simp only [State.d1, State.d2, State.d3, Config.N] at *
    have a1 := s.head.isLt
    have a2 := s.headR.isLt
    simp only [toNat_distance, toNat_succ_index] at *
    split_ifs at * <;> omega
  have horder : ((s.pushItem v).completeW m .ok none).d1 + ((s.pushItem v).completeW m .ok none).d2
      + ((s.pushItem v).completeW m .ok none).d3 ≤ ((s.pushItem v).completeW m .ok none).cfg.N - 1 := by
    rw [hd3]
    show s.d1 + s.d2 + (s.d3 + 1) ≤ s.cfg.N - 1
    omega
  have hsize : ((s.pushItem v).completeW m .ok none).size.toNat = s.size.toNat + 1 := by
    rw [size_eq horder, hd3, hs]
    rfl
  obtain ⟨hp, hq⟩ := pushes_pops_recorded s .w m .ok none
  have hpush : ((s.pushItem v).completeW m .ok none).pushes = s.pushes + 1 := by
    show countSinceReset _ (s.recorded .w m .ok none) = _
    rw [hp]
    simp [hm]
  have hpop : ((s.pushItem v).completeW m .ok none).pops = s.pops := by
    show countSinceReset _ (s.recorded .w m .ok none) = _
    rw [hq]
    rcases hm with rfl | rfl <;> simp
  exact
    { headGray := rfl
      tailGray := h.tailGray
      order := horder
      memWf := write_wf h.memWf _ _
      memRange := write_range h.memRange s.head.isLt _
      arc := by
        intro k hk
        rw [hsize] at hk
        show ((s.mem.write s.head.toNat v).read (s.arcSlot k)).isSome = true
        rw [read_write]
        split
        · rfl
        · next hne =>
          refine h.arc k ?_
          rcases Nat.lt_or_ge k s.size.toNat with hlt | hge
          · exact hlt
          · have hke : k = s.size.toNat := by omega
            exact absurd (hke ▸ arcSlot_size s) hne
      conserve := by rw [hpush, hpop, hsize, h.conserve]; omega
      headCounts := by
        rw [hpush]
        show (s.head + 1).toNat = (s.pushes + 1) % s.cfg.N
        rw [BitVec.toNat_add, h.headCounts]
        simp [Config.N, Nat.add_mod]
      wStatus := .inl rfl
      rStatus := h.rStatus
      tStatus := h.tStatus }

/-- A successful POP moves 1 from `d2` to `d1` (20_memory.md R67). -/
theorem inv_pop {s : State} (h : s.Inv) (he : s.emptyR = false) (rd : Option Word64) :
    (s.popItem.completeR .pop .ok rd).Inv := by
  have ho := h.order
  have hd2 : s.d2 ≠ 0 := fun e => by simp [(emptyR_iff s).mpr e] at he
  have hs := size_eq ho
  have hd2' : (s.popItem.completeR .pop .ok rd).d2 = s.d2 - 1 ∧ (s.popItem.completeR .pop .ok rd).d1 = s.d1 + 1 := by
    show (s.headR - (s.tail + 1)).toNat = (s.headR - s.tail).toNat - 1 ∧
      (s.tail + 1 - s.tailW).toNat = (s.tail - s.tailW).toNat + 1
    simp only [State.d1, State.d2, State.d3, Config.N] at *
    have a1 := s.tail.isLt
    have a2 := s.headR.isLt
    have a3 := s.tailW.isLt
    simp only [toNat_distance, toNat_succ_index] at *
    split_ifs at * <;> omega
  have horder : (s.popItem.completeR .pop .ok rd).d1 + (s.popItem.completeR .pop .ok rd).d2
      + (s.popItem.completeR .pop .ok rd).d3 ≤ (s.popItem.completeR .pop .ok rd).cfg.N - 1 := by
    rw [hd2'.1, hd2'.2]
    show s.d1 + 1 + (s.d2 - 1) + s.d3 ≤ s.cfg.N - 1
    omega
  have hsize : (s.popItem.completeR .pop .ok rd).size.toNat + 1 = s.size.toNat := by
    rw [size_eq horder, hd2'.1, hs]
    show s.d2 - 1 + s.d3 + 1 = s.d2 + s.d3
    omega
  obtain ⟨hp, hq⟩ := pushes_pops_recorded s .r .pop .ok rd
  have hpush : (s.popItem.completeR .pop .ok rd).pushes = s.pushes := by
    show countSinceReset _ (s.recorded .r .pop .ok rd) = _
    rw [hp]
    simp
  have hpop : (s.popItem.completeR .pop .ok rd).pops = s.pops + 1 := by
    show countSinceReset _ (s.recorded .r .pop .ok rd) = _
    rw [hq]
    simp
  exact
    { headGray := h.headGray
      tailGray := rfl
      order := horder
      memWf := h.memWf
      memRange := h.memRange
      arc := by
        intro k hk
        have harc := h.arc (k + 1) (by omega)
        have hslot : (s.popItem.completeR .pop .ok rd).arcSlot k = s.arcSlot (k + 1) := by
          show (s.tail + 1 + BitVec.ofNat s.cfg.A k).toNat = (s.tail + BitVec.ofNat s.cfg.A (k + 1)).toNat
          rw [BitVec.ofNat_add, BitVec.add_assoc, BitVec.add_comm 1]
          rfl
        rw [hslot]
        exact harc
      conserve := by
        have hc := h.conserve
        rw [hpush, hpop]
        omega
      headCounts := by rw [hpush]; exact h.headCounts
      wStatus := h.wStatus
      rStatus := .inl rfl
      tStatus := h.tStatus }

/-- Reset: every distance is 0, and the counts start again. -/
theorem inv_reset {s : State} (hg : s.head = 0 ∧ s.headGray = 0 ∧ s.tailW = 0 ∧ s.tail = 0 ∧ s.tailGray = 0 ∧ s.headR = 0)
    (hm : s.mem = []) (hst : s.wStatus = 0 ∧ s.rStatus = 0 ∧ s.tStatus = 0)
    (hh : s.pushes = 0 ∧ s.pops = 0) : s.Inv := by
  obtain ⟨h1, h2, h3, h4, h5, h6⟩ := hg
  have hz : s.size.toNat = 0 := by simp [State.size, h1, h4]
  exact
    { headGray := by simp [h1, h2, gray]
      tailGray := by simp [h4, h5, gray]
      order := by simp [State.d1, State.d2, State.d3, h1, h3, h4, h6]
      memWf := by rw [hm]; rfl
      memRange := by simp [hm]
      arc := by simp [hz]
      conserve := by rw [hh.1, hh.2, hz]
      headCounts := by simp [h1, hh.1]
      wStatus := .inl hst.1
      rStatus := .inl hst.2.1
      tStatus := .inl hst.2.2 }

end Sys2Proof.Machine
end

