-- ==== Sys2Proof/Laws/PerInstr.lean ====
section
/-! SUPPORT. What is said of every command as syntax, one lemma per command: the word the encoder gives it carries, in
its port field, the port that issues it (30_encoding.md R96, R98). -/

namespace Sys2Proof.Laws.PortOfWord

/-- The port field of the command's word names its port: 0 is W, 1 is R, 2 is T, and 3 is none (30_encoding.md R96). -/
def Statement (i : Instr) : Prop :=
  (portField (encodeWord i)).toNat =
    match i.port? with
    | some .w => 0
    | some .r => 1
    | some .t => 2
    | none => 3

theorem wNop : Statement .wNop := rfl

theorem push (item : Word64) : Statement (.push item) := by
  simp [Statement, encodeWord, portField, Instr.port?]

theorem pushBlocking (item : Word64) : Statement (.pushBlocking item) := by
  simp [Statement, encodeWord, portField, Instr.port?]

theorem wFull : Statement .wFull := rfl

theorem wSize : Statement .wSize := rfl

theorem wEmpty : Statement .wEmpty := rfl

theorem wOvf : Statement .wOvf := rfl

theorem wReserved111 : Statement .wReserved111 := rfl

theorem rNop : Statement .rNop := rfl

theorem pop : Statement .pop := rfl

theorem rReserved010 : Statement .rReserved010 := rfl

theorem rFull : Statement .rFull := rfl

theorem rSize : Statement .rSize := rfl

theorem rEmpty : Statement .rEmpty := rfl

theorem rReserved110 : Statement .rReserved110 := rfl

theorem rReserved111 : Statement .rReserved111 := rfl

theorem tNop : Statement .tNop := rfl

theorem now : Statement .now := rfl

theorem elapsed (start now : Word64) : Statement (.elapsed start now) := by
  simp [Statement, encodeWord, portField, Instr.port?]

theorem t2d (ticks period : Word64) : Statement (.t2d ticks period) := by
  simp [Statement, encodeWord, portField, Instr.port?]

theorem d2t (duration period : Word64) : Statement (.d2t duration period) := by
  simp [Statement, encodeWord, portField, Instr.port?]

theorem sleepUntil (target : Word64) : Statement (.sleepUntil target) := by
  simp [Statement, encodeWord, portField, Instr.port?]

theorem init : Statement .init := rfl

theorem tReserved111 : Statement .tReserved111 := rfl

theorem noPort (op : BitVec 3) : Statement (.noPort op) := by
  revert op
  unfold Statement
  decide

end Sys2Proof.Laws.PortOfWord
end

