-- ==== Sys2Proof/Laws/Runs.lean ====
section
/-! SUPPORT. How the fairness of an infinite run and its stopped clocks meet in a hang (70_reset_and_hazards.md R261,
R262). -/

namespace Sys2Proof.Machine

/-- A run with the premise of R262 item 1 hangs exactly where a wait in it never completes. -/
theorem hangs_of_fair {r : InfiniteRun} (h : r.fair) : r.hangs ↔ r.waitsForever :=
  ⟨fun hh => hh.2, fun hw => ⟨⟨.inr h.1, .inr h.2.1, .inr h.2.2.1, .inr h.2.2.2⟩, hw⟩⟩

/-- In a hang, an engine or synchronizer whose step stays enabled and is never taken has its clock stopped. -/
theorem stops_of_untaken {r : InfiniteRun} {a : Agent} {n : Nat} (h : r.fairWhileClocked a)
    (he : ∀ m, n ≤ m → enabled a (r.state m) = true) (hn : ∀ m, n ≤ m → r.act m ≠ .agent a) :
    ∃ c, a.clock? = some c ∧ r.stops c := by
  rcases h with h | h
  · exact h
  · obtain ⟨m, hm, ha⟩ := h n he
    exact absurd ha (hn m hm)

end Sys2Proof.Machine
end

