-- ==== Sys2Proof/Tests/Slice0.lean ====
section
/-! SUPPORT. The model's own tests: the WellFormed checks, each command word of 30_encoding.md R98, at most two small
tests per command with the values of 95_test_vectors.md (named in the comments), and for each obligation a witness that
its hypotheses can be met. -/

namespace Sys2Proof.Tests
open Sys2Proof.Machine

/-! ### Helpers -/

/-- What a function reads in the next state, if there is one. -/
def look {α : Type} (r : Result) (f : State → α) : Option α :=
  match r with
  | .next s => some (f s)
  | _ => none

/-- The next state, or the state before where there is none. -/
def after (s : State) (r : Result) : State := (look r id).getD s

/-- Configurations of the test vectors other than the standard one. -/
def cw32 : Config := ⟨3, 8, 2, 32, rfl⟩
def cw4 : Config := ⟨3, 8, 2, 4, rfl⟩
def oneSlot : Config := ⟨0, 8, 2, 64, rfl⟩
def wide : Config := ⟨3, 64, 2, 64, rfl⟩

/-- A state of the standard configuration with given indices. -/
def fifo (tailW tail headR head : Nat) : State :=
  { State.reset with
    tailW := BitVec.ofNat 3 tailW, tail := BitVec.ofNat 3 tail, tailGray := gray (BitVec.ofNat 3 tail)
    headR := BitVec.ofNat 3 headR, head := BitVec.ofNat 3 head, headGray := gray (BitVec.ofNat 3 head) }

/-- A state of a configuration with a given count. -/
def counting (c : Config) (n : Nat) : State := { State.resetWith c with count := BitVec.ofNat c.CW n }

/-- Status, result, `head` and `ovf` after a W command. -/
def onW (r : Result) : Option (Nat × Nat × Nat × Nat) :=
  look r fun s => (s.wStatus.toNat, s.wRdata.toNat, s.head.toNat, s.ovf.toNat)

/-- Status, result and `tail` after an R command. -/
def onR (r : Result) : Option (Nat × Nat × Nat) :=
  look r fun s => (s.rStatus.toNat, s.rRdata.toNat, s.tail.toNat)

/-- Status, result and `count` after a T command. -/
def onT (r : Result) : Option (Nat × Nat × Nat) :=
  look r fun s => (s.tStatus.toNat, s.tRdata.toNat, s.count.toNat)

/-! ### WellFormed -/

/-- An item of 9 bits does not fit the 8 wires of `w_data`. -/
theorem test_wellFormed_refuses_wide_push : wellFormed Config.standard (.push 256) = false := by decide
theorem test_wellFormed_refuses_wide_push_blocking :
    wellFormed Config.standard (.pushBlocking 0x100) = false := by decide
theorem test_wellFormed_refuses_no_port : wellFormed Config.standard (.noPort 0) = false := by decide
theorem test_wellFormed_admits_the_widest_item :
    (wellFormed Config.standard (.push 255) && wellFormed wide (.push 0xFFFFFFFFFFFFFFFF)) = true := by decide

/-! ### Elaboration (00_scope.md R12) -/

theorem test_elaborate_admits_the_ends_of_the_ranges :
    ((elaborate ⟨1, 1, 2, 1⟩).isOk && (elaborate ⟨2 ^ 32, 64, 2, 64⟩).isOk) = true := by decide
theorem test_elaborate_rejects_by_name :
    (match elaborate ⟨6, 8, 2, 64⟩ with | .error .misconfiguration => true | _ => false) &&
    (match elaborate ⟨0, 8, 2, 64⟩ with | .error .misconfiguration => true | _ => false) &&
    (match elaborate ⟨2 ^ 33, 8, 2, 64⟩ with | .error .outOfRange => true | _ => false) &&
    (match elaborate ⟨8, 65, 2, 64⟩ with | .error .outOfRange => true | _ => false) &&
    (match elaborate ⟨8, 8, 1, 64⟩ with | .error .outOfRange => true | _ => false) &&
    (match elaborate ⟨8, 8, 2, 0⟩ with | .error .outOfRange => true | _ => false) = true := by decide

/-! ### Decoding: every word of 30_encoding.md R98, written out from its table -/

theorem test_decode_w_words :
    [0b00000, 0b00001, 0b00010, 0b00011, 0b00100, 0b00101, 0b00110, 0b00111].map (decodeTableWord 8) =
      [some .wNop, some (.push 0), some (.pushBlocking 0), some .wFull, some .wSize, some .wEmpty, some .wOvf,
        some .wReserved111] := by decide
theorem test_decode_r_words :
    [0b01000, 0b01001, 0b01010, 0b01011, 0b01100, 0b01101, 0b01110, 0b01111].map (decodeTableWord 8) =
      [some .rNop, some .pop, some .rReserved010, some .rFull, some .rSize, some .rEmpty, some .rReserved110,
        some .rReserved111] := by decide
theorem test_decode_t_words :
    [0b10000, 0b10001, 0b10010, 0b10011, 0b10100, 0b10101, 0b10110, 0b10111].map (decodeTableWord 8) =
      [some .tNop, some .now, some (.elapsed 0 0), some (.t2d 0 0), some (.d2t 0 0), some (.sleepUntil 0), some .init,
        some .tReserved111] := by decide
theorem test_decode_refuses_port_11 :
    [0b11000, 0b11001, 0b11010, 0b11011, 0b11100, 0b11101, 0b11110, 0b11111].map (decodeTableWord 8) =
      List.replicate 8 none := by decide

/-- 30_encoding.md R100: which bus gives each operand. -/
theorem test_decode_operand_buses :
    [decode ⟨0b00001, 1, 2, 3⟩, decode ⟨0b00010, 1, 2, 3⟩, decode ⟨0b10010, 1, 2, 3⟩, decode ⟨0b10011, 1, 2, 3⟩,
      decode ⟨0b10100, 1, 2, 3⟩, decode ⟨0b10101, 1, 2, 3⟩].map Except.toOption =
    [some (.push 1), some (.pushBlocking 1), some (.elapsed 2 3), some (.t2d 2 3), some (.d2t 2 3),
      some (.sleepUntil 2)] := by decide

/-- Each command placed where `step` fetches runs as the first after reset: one completion, with its status. -/
theorem test_withFetchWord_runs_each_command :
    (List.range 24).map (fun w => look (step (State.reset.withFetchWord 8 w)) fun s =>
      s.history.map fun e => match e with | .completed c => c.st.code.toNat | .reset => 9) =
    ([0, 0, 0, 0, 0, 0, 0, 3, 0, 2, 3, 0, 0, 0, 3, 3, 0, 0, 0, 0, 4, 0, 0, 3]).map (fun k => some [k]) := by decide
theorem test_withFetchWord_refuses_port_11 :
    look (step (State.reset.withFetchWord 8 0b11010)) (fun _ => ()) = none := by decide

/-- 30_encoding.md R102: an assembler line and the directives. -/
theorem test_assemble :
    [assemble Config.standard .push [0x41], assemble Config.standard .push [256], assemble Config.standard .pop [1],
      assemble Config.standard .elapsed [0, 5], assemble Config.standard .sleepUntil [2 ^ 64]] =
    [some (.push 0x41), none, none, some (.elapsed 0 5), none] := by decide

/-! ### The W port (95_test_vectors.md) -/

/-- W-1. -/
theorem test_push_stores :
    look (exec (.push 0x41) State.reset) (fun s =>
      (s.head.toNat, s.headGray.toNat, s.wStatus.toNat, (s.mem.read 0).map BitVec.toNat)) =
    some (1, 1, 0, some 0x41) := by decide
/-- W-4. -/
theorem test_push_drops_and_wraps_ovf :
    onW (exec (.push 0) { fifo 4 3 3 3 with ovf := 0xFFFFFFFF }) = some (1, 0, 3, 0) := by decide
/-- W-5. -/
theorem test_push_blocking_completes_at_once :
    look (exec (.pushBlocking 0x33) (fifo 5 5 2 2)) (fun s =>
      (s.head.toNat, s.wBusy, s.wStatus.toNat, (s.mem.read 2).map BitVec.toNat)) =
    some (3, false, 0, some 0x33) := by decide
/-- R123, example; W-12 at one slot. -/
theorem test_push_blocking_waits :
    [exec (.pushBlocking 0x2A) (fifo 0 0 7 7), exec (.pushBlocking 0x2A) (State.resetWith oneSlot)].map
      (fun r => look r fun s => (s.wBusy, s.wPdata.toNat, s.history.length)) =
    [some (true, 0x2A, 0), some (true, 0x2A, 0)] := by decide
/-- W-8, W-10. -/
theorem test_w_full : [onW (exec .wFull (fifo 0 0 7 7)), onW (exec .wFull (fifo 5 5 5 5))] =
    [some (0, 1, 7, 0), some (0, 0, 5, 0)] := by decide
/-- W-7; W-11 at one slot. -/
theorem test_w_size : [onW (exec .wSize (fifo 6 6 2 2)), onW (exec .wSize (State.resetWith oneSlot))] =
    [some (0, 4, 2, 0), some (0, 0, 0, 0)] := by decide
/-- W-10, W-8. -/
theorem test_w_empty : [onW (exec .wEmpty (fifo 5 5 5 5)), onW (exec .wEmpty (fifo 0 0 7 7))] =
    [some (0, 1, 5, 0), some (0, 0, 7, 0)] := by decide
/-- W-13. -/
theorem test_w_ovf_does_not_clear :
    onW (exec .wOvf (after State.reset (exec .wOvf { State.reset with ovf := 5, wRdata := 0x99 }))) =
      some (0, 5, 0, 5) := by decide
/-- W-14. -/
theorem test_w_nop_keeps_the_result :
    onW (exec .wNop { State.reset with wStatus := 1, wRdata := 0x99 }) = some (0, 0x99, 0, 0) := by decide
/-- W-15. -/
theorem test_w_reserved_is_illegal :
    onW (exec .wReserved111 { State.reset with wRdata := 0x99, ovf := 2 }) = some (3, 0x99, 0, 2) := by decide
/-- 30_encoding.md R99 item 2. -/
theorem test_no_port_is_refused :
    (match exec (.noPort 5) State.reset with | .refused .noPort => true | _ => false) = true := by decide

/-! ### The R port -/

/-- R-3. -/
theorem test_pop_wraps_the_tail :
    look (exec .pop { fifo 7 7 2 2 with mem := [(7, 0x5A)] }) (fun s =>
      (s.rStatus.toNat, s.rRdata.toNat, s.tail.toNat, s.tailGray.toNat)) = some (0, 0x5A, 0, 0) := by decide
/-- R-5, and R-8 at one slot. -/
theorem test_pop_empty_keeps_the_result :
    [onR (exec .pop { fifo 4 4 4 4 with rRdata := 0x11 }), onR (exec .pop (State.resetWith oneSlot))] =
      [some (2, 0x11, 4), some (2, 0, 0)] := by decide
/-- R-6, at N = 8 (`0 ⊕ 1 = 1`), and its false case. -/
theorem test_r_full : [onR (exec .rFull (fifo 1 1 0 0)), onR (exec .rFull (fifo 1 1 7 7))] =
    [some (0, 1, 1), some (0, 0, 1)] := by decide
/-- R-7. -/
theorem test_r_size : onR (exec .rSize (fifo 6 6 1 1)) = some (0, 3, 6) := by decide
/-- R-4, R-6. -/
theorem test_r_empty : [onR (exec .rEmpty (fifo 0 0 0 2)), onR (exec .rEmpty (fifo 1 1 0 0))] =
    [some (0, 1, 0), some (0, 0, 1)] := by decide
/-- R-10. -/
theorem test_r_nop_keeps_the_result :
    onR (exec .rNop { State.reset with rStatus := 2, rRdata := 0x22 }) = some (0, 0x22, 0) := by decide
/-- R-9. -/
theorem test_r_reserved_are_illegal :
    [Instr.rReserved010, .rReserved110, .rReserved111].map
      (fun i => onR (exec i { fifo 2 2 2 2 with rRdata := 0x22 })) = List.replicate 3 (some (3, 0x22, 2)) := by decide

/-! ### The T port and the tick -/

/-- T-29. -/
theorem test_t_nop_keeps_the_result :
    onT (exec .tNop { State.reset with tRdata := 9 }) = some (0, 9, 0) := by decide
/-- T-29. -/
theorem test_t_reserved_is_illegal :
    onT (exec .tReserved111 { State.reset with tRdata := 9 }) = some (3, 9, 0) := by decide
/-- T-20. -/
theorem test_now : onT (exec .now (counting cw32 0xFFFFFFFE)) = some (0, 0xFFFFFFFE, 0xFFFFFFFE) := by decide
/-- T-1, T-2, T-5. -/
theorem test_elapsed_wraps :
    [onT (exec (.elapsed 0xFFFFFFFE 1) (counting cw32 9)), onT (exec (.elapsed 0xFFFFFFFE 1) (counting Config.standard 9)),
      onT (exec (.elapsed 0x100000000 5) (counting cw32 9))] =
    [some (0, 3, 9), some (0, 0xFFFFFFFF00000003, 9), some (0, 5, 9)] := by decide
/-- T-7, T-8, T-9. -/
theorem test_t2d :
    [onT (exec (.t2d 1234 10000) State.reset), onT (exec (.t2d 0x8000000000000000 2) State.reset),
      onT (exec (.t2d 0xFFFFFFFFFFFFFFFF 0xFFFFFFFF) State.reset)] =
    [some (0, 12340000, 0), some (0, 0, 0), some (0, 0xFFFFFFFF00000001, 0)] := by decide
/-- T-11, T-12. -/
theorem test_t2d_truncates_its_operands :
    [onT (exec (.t2d 0x13 10) (counting cw4 0)), onT (exec (.t2d 3 0x100000002) State.reset)] =
    [some (0, 30, 0), some (0, 6, 0)] := by decide
/-- T-14, T-15, T-18. -/
theorem test_d2t :
    [onT (exec (.d2t 5000000 10000) State.reset), onT (exec (.d2t 9999 10000) State.reset),
      onT (exec (.d2t 0xFFFFFFFFFFFFFFFF 1) (counting cw4 0))] =
    [some (0, 500, 0), some (0, 0, 0), some (0, 0xFFFFFFFFFFFFFFFF, 0)] := by decide
/-- T-16, T-17. -/
theorem test_d2t_by_zero :
    [exec (.d2t 123 0) State.reset, exec (.d2t 123 0x100000000) State.reset].map onT =
    List.replicate 2 (some (4, 0xFFFFFFFFFFFFFFFF, 0)) := by decide
/-- T-23, T-24, T-27. -/
theorem test_sleep_until_completes_at_once :
    [onT (exec (.sleepUntil 5) (counting cw4 7)), onT (exec (.sleepUntil 7) (counting cw4 7)),
      onT (exec (.sleepUntil 2) (counting cw4 14))] = [some (0, 7, 7), some (0, 7, 7), some (0, 14, 14)] := by decide
/-- T-25: two ticks reach the target, a third is not taken, and TENG completes. -/
theorem test_sleep_until_waits :
    look (runActs [.agent .tick, .agent .tick, .agent .tick, .agent .teng]
      (after State.reset (exec (.sleepUntil 5) (counting cw4 3)))) (fun s =>
        (s.tBusy, s.tTarget.toNat, s.tStatus.toNat, s.tRdata.toNat, s.count.toNat)) =
    some (false, 5, 0, 5, 5) := by decide
/-- T-28. -/
theorem test_init :
    onT (exec .init { counting Config.standard 0x1234 with tRdata := 9 }) = some (0, 9, 0) := by decide
/-- T-21. -/
theorem test_tick_wraps : onT (runAgent .tick (counting cw4 15)) = some (0, 0, 0) := by decide

/-! ### Crossing, edges, reset -/

/-- 95_test_vectors.md, Gray code at A = 3, and its inverse. -/
theorem test_gray :
    ((List.range 8).map fun k => (gray (BitVec.ofNat 3 k)).toNat) = [0, 1, 3, 2, 6, 7, 5, 4] ∧
    bin 0b110#3 = 4 ∧ bin 0b101#3 = 6 := by decide
/-- W-17: an item of 64 bits comes back whole, by one crossing step. -/
theorem test_item_crosses_whole :
    onR (Sys2Proof.core.run 3 (State.started wide [⟨0b00001, 0xFFFFFFFFFFFFFFFF, 0, 0⟩] [⟨0b01001, 0, 0, 0⟩] []
      [.agent .wreq, .agent .syncH, .agent .rreq])) = some (0, 0xFFFFFFFFFFFFFFFF, 1) := by decide
/-- T-30, T-31. -/
theorem test_edge_orders_command_before_tick :
    [onT (runSlot (.tEdge true true) { counting cw4 4 with tCmds := [⟨0b10110, 0, 0, 0⟩] }),
      onT (runSlot (.tEdge true true) { counting cw4 4 with tCmds := [⟨0b10001, 0, 0, 0⟩] })] =
    [some (0, 0, 0), some (0, 4, 5)] := by decide
/-- X-1, X-2, X-3: the reset state, whatever came before, with no completion. -/
theorem test_reset :
    look (runAgent .rst { fifo 2 2 5 5 with ovf := 9, count := 100, wBusy := true, tBusy := true, mem := [(2, 7)] })
      (fun s => { s with history := [] } == State.reset) = some true := by decide
theorem test_reset_memory_is_canonical : State.reset.mem.wf = true := rfl
/-- 10_state.md R35: a slot that holds no value faults. -/
theorem test_unwritten_slot_faults :
    (match exec .pop (fifo 0 0 1 1) with | .fault (.unwrittenSlot 0) => true | _ => false) = true := by decide
/-- R260: the observation of a finished run of one push. -/
theorem test_observation :
    look (Sys2Proof.core.run 1 (State.started Config.standard [⟨0b00001, 0x41, 0, 0⟩] [] [] [.agent .wreq]))
      (fun s => (s.finished, s.observe.head, s.observe.arc, s.observe.wDone.length)) =
    some (true, 1, [some 0x41], 1) := by decide


/-! ### Witnesses: states and operands that meet the hypotheses of each obligation -/

/-- One item stored and visible to the consumer: a state that meets the invariant. -/
def stored : State :=
  { fifo 0 0 1 1 with mem := [(0, 0x41)], history := [.completed ⟨.w, .push, .ok, none⟩] }

theorem stored_inv : stored.Inv where
  headGray := by decide
  tailGray := by decide
  order := by decide
  memWf := by decide
  memRange := by decide
  arc := by decide
  conserve := by decide
  headCounts := by decide
  wStatus := by decide
  rStatus := by decide
  tStatus := by decide

/-- One item pushed and popped, the release not yet seen by the producer, and a PUSH_BLOCKING that may complete. -/
def pending : State :=
  { fifo 0 1 1 1 with
    mem := [(0, 0x41)], wBusy := true, wPdata := 0x2A
    history := [.completed ⟨.w, .push, .ok, none⟩, .completed ⟨.r, .pop, .ok, some 0x41⟩] }

theorem pending_inv : pending.Inv where
  headGray := by decide
  tailGray := by decide
  order := by decide
  memWf := by decide
  memRange := by decide
  arc := by decide
  conserve := by decide
  headCounts := by decide
  wStatus := by decide
  rStatus := by decide
  tStatus := by decide

/-- A SLEEP_UNTIL pending at CW = 4. -/
def sleeping (count target : Nat) : State :=
  { counting cw4 count with tBusy := true, tTarget := BitVec.ofNat 64 target }

theorem witness_ElaborationAdmitsExactlyTheLegalConfigurations :
    (∀ k, (RawConfig.mk 0 8 2 64).depth ≠ 2 ^ k) ∧ (∃ c, elaborate ⟨8, 8, 2, 64⟩ = .ok c) :=
  ⟨fun k => (Nat.two_pow_pos k).ne, Config.standard, rfl⟩
theorem witness_DecodeAndEncodeAgree :
    wellFormed Config.standard (.push 255) = true ∧
    (decode ⟨0b00000#5, 1, 2, 3⟩ = .ok .wNop ∧ decode ⟨0b00000#5, 7, 8, 9⟩ = .ok .wNop) ∧
    (0b11111#5).toNat / 8 = 3 ∧ (0b11000#5).toNat / 8 = 3 := ⟨by decide, ⟨rfl, rfl⟩, by decide, by decide⟩
theorem witness_NoPortWordsAreRefused :
    (∃ (s : State) (c : Cmd) (cs : List Cmd) (xs : List Slot), c.word.toNat / 8 = 3 ∧ s.sched = .agent .wreq :: xs ∧
      s.wCmds = c :: cs ∧ s.wBusy = false) ∧
    (∃ (s : State) (c : Cmd) (cs : List Cmd) (xs : List Slot), c.word.toNat / 8 = 3 ∧ s.sched = .agent .rreq :: xs ∧
      s.rCmds = c :: cs) ∧
    (∃ (s : State) (c : Cmd) (cs : List Cmd) (xs : List Slot), c.word.toNat / 8 = 3 ∧ s.sched = .agent .treq :: xs ∧
      s.tCmds = c :: cs ∧ s.tBusy = false) :=
  ⟨⟨State.started Config.standard [⟨0b11000, 0, 0, 0⟩] [] [] [.agent .wreq], ⟨0b11000, 0, 0, 0⟩, [], [], by decide, rfl,
      rfl, rfl⟩,
    ⟨State.started Config.standard [] [⟨0b11111, 0, 0, 0⟩] [] [.agent .rreq], ⟨0b11111, 0, 0, 0⟩, [], [], by decide, rfl,
      rfl⟩,
    ⟨State.started Config.standard [] [] [⟨0b11010, 0, 0, 0⟩] [.agent .treq], ⟨0b11010, 0, 0, 0⟩, [], [], by decide, rfl,
      rfl, rfl⟩⟩
theorem witness_wPort_ready : State.reset.wBusy = false ∧ State.reset.tBusy = false := by decide
theorem witness_PushStoresOrDropsTheItem :
    ((fifo 0 0 7 7).wBusy = false ∧ (fifo 0 0 7 7).head + 1 = (fifo 0 0 7 7).tailW) ∧
    ((fifo 3 3 7 7).wBusy = false ∧ (fifo 3 3 7 7).head + 1 ≠ (fifo 3 3 7 7).tailW) := by decide
theorem witness_PushBlockingStoresOrWaits :
    ((fifo 1 1 7 7).wBusy = false ∧ (fifo 1 1 7 7).head + 1 ≠ (fifo 1 1 7 7).tailW) ∧
    ((fifo 4 4 3 3).wBusy = false ∧ (fifo 4 4 3 3).head + 1 = (fifo 4 4 3 3).tailW) := by decide
theorem witness_EngineCompletesAPendingPush :
    (pending.wBusy = true ∧ pending.head + 1 ≠ pending.tailW) ∧ State.reset.wBusy = false ∧
    (let s : State := { fifo 0 0 7 7 with wBusy := true }; s.wBusy = true ∧ s.head + 1 = s.tailW) := by decide
theorem witness_ABusyPortIssuesNothing :
    (Instr.port? .pop ≠ some .w ∧ Instr.port? (.push 0) = some .w ∧ pending.wBusy = true) ∧
    (Instr.port? .now = some .t ∧ (sleeping 3 5).tBusy = true) ∧
    (∃ (s : State) (xs : List Slot), s.sched = .agent .wreq :: xs ∧ s.wBusy = true) ∧
    (∃ (s : State) (xs : List Slot), s.sched = .agent .treq :: xs ∧ s.tBusy = true) :=
  ⟨by decide, by decide, ⟨{ pending with sched := [.agent .wreq] }, [], rfl, rfl⟩,
    ⟨{ sleeping 3 5 with sched := [.agent .treq] }, [], rfl, rfl⟩⟩
/-- W-9 has lag 2; at lag 7 no push succeeds. -/
theorem witness_FullBufferLaw :
    (∃ items : List Word64, (fifo 1 3 3 3).wBusy = false ∧ (fifo 1 3 3 3).head = (fifo 1 3 3 3).tail ∧
      2 = ((fifo 1 3 3 3).tail - (fifo 1 3 3 3).tailW).toNat ∧ items.length = (fifo 1 3 3 3).cfg.N) ∧
    (∃ items : List Word64, State.reset.wBusy = false ∧ State.reset.head = State.reset.tail ∧
      0 = (State.reset.tail - State.reset.tailW).toNat ∧ items.length = State.reset.cfg.N) ∧
    7 = ((fifo 0 7 7 7).tail - (fifo 0 7 7 7).tailW).toNat :=
  ⟨⟨List.replicate 8 0, by decide⟩, ⟨List.replicate 8 0, by decide⟩, by decide⟩
theorem witness_PopReturnsTheOldestItemOrEmpty :
    State.reset.tail = State.reset.headR ∧
    (stored.tail ≠ stored.headR ∧ stored.mem.read stored.tail.toNat = some (0x41#8)) :=
  ⟨by decide, by decide, rfl⟩
theorem witness_PopOfASlotWithNoValueFaults :
    (fifo 0 0 1 1).tail ≠ (fifo 0 0 1 1).headR ∧ (fifo 0 0 1 1).mem.read (fifo 0 0 1 1).tail.toNat = none := by decide
theorem witness_DrainLaw : ∃ s : State, s.Inv ∧ s.headR = s.head ∧ s.size.toNat = 1 :=
  ⟨stored, stored_inv, by decide, by decide⟩
theorem witness_TicksToDurationMultipliesModulo64Bits :
    (State.resetWith cw32).tBusy = false ∧ (State.resetWith cw32).cfg.CW ≤ 32 := by decide
theorem witness_DurationToTicksDividesOrReportsDivZero :
    State.reset.tBusy = false ∧ (0x100000000#64).toNat % 2 ^ 32 = 0 ∧ (0xFFFFFFFF#64).toNat % 2 ^ 32 ≠ 0 := by decide
theorem witness_SleepUntilCompletesOrWaits :
    ((counting cw4 7).tBusy = false ∧ (7#64).toNat ≤ (counting cw4 7).count.toNat) ∧
    (counting cw4 7).count.toNat < (8#64).toNat := by decide
theorem witness_EngineCompletesAPendingSleepBeforeAnyTick :
    ((sleeping 5 5).tBusy = true ∧ (sleeping 5 5).tTarget.toNat ≤ (sleeping 5 5).count.toNat) ∧
    (sleeping 4 5).count.toNat < (sleeping 4 5).tTarget.toNat ∧ State.reset.tBusy = false := by decide
theorem witness_TickAddsOneModuloTheWidth :
    (counting cw4 15).tBusy = false ∧ (sleeping 4 5).count.toNat < (sleeping 4 5).tTarget.toNat := by decide

/-- The states of the interval law at CW = 4 from a count, with ticks between the two NOWs. -/
def interval (count ticks : Nat) : State × State × State × State :=
  let s1 := after State.reset (exec .now (counting cw4 count))
  let s2 := after State.reset (runActs (List.replicate ticks (.agent .tick)) s1)
  let s3 := after State.reset (exec .now s2)
  (s1, s2, s3, after State.reset (exec (.elapsed s1.tRdata s3.tRdata) s3))

/-- P5: 4 ticks from 14 wrap; 5 from 3 do not; 16 are a whole period. -/
theorem witness_IntervalLaw (n T : Nat) (h : (n, T) ∈ [(14, 4), (3, 5), (3, 16)]) :
    ∃ (s s1 s2 s3 s4 : State) (acts : List Act), s.tBusy = false ∧ exec .now s = .next s1 ∧
      Act.agent .rst ∉ acts ∧ initsDuring acts s1 = 0 ∧ runActs acts s1 = .next s2 ∧
      s2.tBusy = false ∧ exec .now s2 = .next s3 ∧ exec (.elapsed s1.tRdata s3.tRdata) s3 = .next s4 ∧
      s1.tRdata.toNat = n ∧ ticksDuring acts s1 = T := by
  refine ⟨counting cw4 n, (interval n T).1, (interval n T).2.1, (interval n T).2.2.1, (interval n T).2.2.2,
    List.replicate T (.agent .tick), ?_⟩
  simp only [List.mem_cons, Prod.mk.injEq, List.not_mem_nil, or_false] at h
  rcases h with ⟨rfl, rfl⟩ | ⟨rfl, rfl⟩ | ⟨rfl, rfl⟩ <;>
    exact ⟨by decide, rfl, by decide, by decide, rfl, by decide, rfl, rfl, by decide, by decide⟩
/-- An INIT that is presented but not issued between the NOWs is no INIT between them; one that is issued is counted. -/
theorem test_initsDuring_counts_issued_inits :
    (let s : State := { counting cw4 3 with tCmds := [⟨0b10110, 0, 0, 0⟩] }
     (initsDuring [.agent .tick] s, initsDuring [.agent .tick, .agent .treq] s,
      initsDuring [.agent .treq, .agent .treq] { s with tBusy := true })) = (0, 1, 0) := by decide
theorem witness_APendingSleepCompletesAtItsTarget :
    (sleeping 3 15).tBusy = true ∧ (sleeping 3 15).count.toNat ≤ (sleeping 3 15).tTarget.toNat ∧
    (sleeping 3 15).tTarget.toNat < 2 ^ (sleeping 3 15).cfg.CW := by decide
theorem witness_ASleepBeyondTheCounterNeverCompletes :
    (sleeping 3 16).tBusy = true ∧ 2 ^ (sleeping 3 16).cfg.CW ≤ (sleeping 3 16).tTarget.toNat ∧
    (∃ t, runActs [.agent .tick, .agent .teng] (sleeping 3 16) = .next t) := ⟨by decide, by decide, _, rfl⟩
theorem witness_ABlockingPushIntoOneSlotNeverCompletes :
    ∃ s t : State, s.cfg.A = 0 ∧ s.wBusy = true ∧ runActs [.agent .weng, .agent .rreq] s = .next t :=
  ⟨{ State.resetWith oneSlot with wBusy := true }, _, rfl, rfl, rfl⟩
theorem witness_ViewsMoveByUnitSteps :
    (fifo 7 1 7 0).headR ≠ (fifo 7 1 7 0).head ∧ stored.headR = stored.head ∧
    (fifo 7 1 7 0).tailW ≠ (fifo 7 1 7 0).tail ∧ stored.tailW = stored.tail := by decide
theorem witness_AnAgentThatIsNotEnabledChangesNothing :
    enabled .wreq State.reset = false ∧ enabled .weng State.reset = false ∧ enabled .rreq State.reset = false ∧
    enabled .treq State.reset = false ∧ enabled .teng State.reset = false ∧ enabled .syncH State.reset = false ∧
    enabled .syncT State.reset = false ∧ enabled .tick (sleeping 5 5) = false := by decide
theorem witness_AStepRunsTheDecodedInstruction :
    (∃ (s : State) (c : Cmd) (cs : List Cmd) (xs : List Slot) (i : Instr), decode c = .ok i ∧
      s.sched = .agent .wreq :: xs ∧ s.wCmds = c :: cs ∧ s.wBusy = false ∧ i.port? = some .w) ∧
    (∃ (s : State) (c : Cmd) (cs : List Cmd) (xs : List Slot) (i : Instr), decode c = .ok i ∧
      s.sched = .agent .rreq :: xs ∧ s.rCmds = c :: cs ∧ i.port? = some .r) ∧
    (∃ (s : State) (c : Cmd) (cs : List Cmd) (xs : List Slot) (i : Instr), decode c = .ok i ∧
      s.sched = .agent .treq :: xs ∧ s.tCmds = c :: cs ∧ s.tBusy = false ∧ i.port? = some .t) :=
  ⟨⟨State.started Config.standard [⟨0b00000, 0, 0, 0⟩] [] [] [.agent .wreq], _, _, _, .wNop, rfl, rfl, rfl, rfl, rfl⟩,
    ⟨State.started Config.standard [] [⟨0b01001, 0, 0, 0⟩] [] [.agent .rreq], _, _, _, .pop, rfl, rfl, rfl, rfl⟩,
    ⟨State.started Config.standard [] [] [⟨0b10001, 0, 0, 0⟩] [.agent .treq], _, _, _, .now, rfl, rfl, rfl, rfl, rfl⟩⟩
theorem witness_ARequesterIssuesOnlyItsOwnPortsCommands :
    (∃ (s : State) (c : Cmd) (cs : List Cmd) (xs : List Slot) (i : Instr), decode c = .ok i ∧
      s.sched = .agent .wreq :: xs ∧ s.wCmds = c :: cs ∧ s.wBusy = false ∧ i.port? ≠ some .w) ∧
    (∃ (s : State) (c : Cmd) (cs : List Cmd) (xs : List Slot) (i : Instr), decode c = .ok i ∧
      s.sched = .agent .rreq :: xs ∧ s.rCmds = c :: cs ∧ i.port? ≠ some .r) ∧
    (∃ (s : State) (c : Cmd) (cs : List Cmd) (xs : List Slot) (i : Instr), decode c = .ok i ∧
      s.sched = .agent .treq :: xs ∧ s.tCmds = c :: cs ∧ s.tBusy = false ∧ i.port? ≠ some .t) :=
  ⟨⟨State.started Config.standard [⟨0b01001, 0, 0, 0⟩] [] [] [.agent .wreq], _, _, _, .pop, rfl, rfl, rfl, rfl,
      by decide⟩,
    ⟨State.started Config.standard [] [⟨0b10001, 0, 0, 0⟩] [] [.agent .rreq], _, _, _, .now, rfl, rfl, rfl, by decide⟩,
    ⟨State.started Config.standard [] [] [⟨0b00000, 0, 0, 0⟩] [.agent .treq], _, _, _, .wNop, rfl, rfl, rfl, rfl,
      by decide⟩⟩
theorem witness_OneCounterEdgeOrdersCommandBeforeTick :
    (∃ (s : State) (c : Cmd) (cs : List Cmd), s.tBusy = false ∧ s.tCmds = c :: cs ∧ decode c = .ok .init) ∧
    (∃ (s : State) (c : Cmd) (cs : List Cmd), s.tBusy = false ∧ s.tCmds = c :: cs ∧ decode c = .ok .now) ∧
    ((sleeping 5 5).tBusy = true ∧ (sleeping 5 5).tTarget.toNat ≤ (sleeping 5 5).count.toNat) :=
  ⟨⟨{ counting cw4 4 with tCmds := [⟨0b10110, 0, 0, 0⟩] }, _, _, rfl, rfl, rfl⟩,
    ⟨{ counting cw4 15 with tCmds := [⟨0b10001, 0, 0, 0⟩] }, _, _, rfl, rfl, rfl⟩, by decide⟩
theorem witness_OneFifoEdgeOrdersCommandBeforeViewShift :
    (∃ (s : State) (c : Cmd) (cs : List Cmd), s.wBusy = false ∧ s.wCmds = c :: cs ∧ decode c = .ok (.push 7) ∧
      s.head + 1 = s.tailW ∧ s.tailW ≠ s.tail) ∧
    (∃ (s : State) (c : Cmd) (cs : List Cmd), s.rCmds = c :: cs ∧ decode c = .ok .pop ∧ s.tail = s.headR ∧
      s.headR ≠ s.head) :=
  ⟨⟨{ fifo 0 1 7 7 with wCmds := [⟨0b00001, 7, 0, 0⟩] }, _, _, rfl, rfl, rfl, by decide, by decide⟩,
    ⟨{ fifo 0 0 0 1 with rCmds := [⟨0b01001, 0, 0, 0⟩] }, _, _, rfl, rfl, by decide, by decide⟩⟩
/-- Each clause, with an idle port and with a wait that may not complete. -/
theorem witness_AnAckFallsWhereNothingCompletes :
    (let s : State := { fifo 0 0 7 7 with wBusy := true }
     (s.wBusy = false ∨ s.head + 1 = s.tailW) ∧ (true = false ∨ s.wBusy = true ∨ s.wCmds = [])) ∧
    ((State.reset.wBusy = false ∨ State.reset.head + 1 = State.reset.tailW) ∧ State.reset.wCmds = [] ∧
      State.reset.rCmds = [] ∧ State.reset.tCmds = [] ∧ State.reset.tBusy = false) ∧
    ((sleeping 4 5).count.toNat < (sleeping 4 5).tTarget.toNat ∧ (sleeping 4 5).tBusy = true) := by decide
theorem witness_GrayCodeOfAnIndex : 0 + 1 < 3 ∧ 1 + 1 < 3 ∧ 1 ≤ 1 := by decide
theorem witness_AChainShowsTheIndexSampledSEdgesAgo :
    1 ≤ 2 ∧ 2 ≤ [5#3, 6#3].length ∧ ¬ 2 ≤ [5#3].length := by decide
theorem witness_EveryStepKeepsTheInvariant :
    ∃ s t : State, s.Inv ∧ s.sched = [.agent .rreq] ∧ step s = .next t ∧ t.tail.toNat = 1 :=
  ⟨{ stored with rCmds := [⟨0b01001, 0, 0, 0⟩], sched := [.agent .rreq] }, _,
    inv_withSched (inv_withPresented stored_inv .r [⟨0b01001, 0, 0, 0⟩]) [.agent .rreq], rfl, rfl, by decide⟩
theorem witness_NoStepFaultsUnderTheInvariant : ∃ s : State, s.Inv ∧ s.tail ≠ s.headR :=
  ⟨stored, stored_inv, by decide⟩
theorem witness_ViewsBoundTheTrueOccupancy : ∃ s : State, s.Inv ∧ s.size ≠ s.sizeW := ⟨pending, pending_inv, by decide⟩
theorem witness_ConservationInEveryReachableState : ∃ t : State, t.reachable ∧ t.size.toNat = 1 :=
  ⟨_, ⟨Config.standard, [⟨0b00001, 0x41, 0, 0⟩], [], [], [.agent .wreq], 1, rfl⟩, by decide⟩
/-- Two items pushed and one popped, the release not yet seen: both arcs of 20_memory.md R69 have a slot. -/
def bothArcs : State :=
  { fifo 0 1 2 2 with
    mem := [(0, 0x41), (1, 0x42)]
    history := [.completed ⟨.w, .push, .ok, none⟩, .completed ⟨.w, .push, .ok, none⟩,
      .completed ⟨.r, .pop, .ok, some 0x41⟩] }

theorem bothArcs_inv : bothArcs.Inv where
  headGray := by decide
  tailGray := by decide
  order := by decide
  memWf := by decide
  memRange := by decide
  arc := by decide
  conserve := by decide
  headCounts := by decide
  wStatus := by decide
  rStatus := by decide
  tStatus := by decide

theorem witness_APushOverwritesNoSlotInUse :
    (bothArcs.Inv ∧ bothArcs.head + 1 ≠ bothArcs.tailW ∧ bothArcs.wBusy = false ∧ 0 < bothArcs.size.toNat ∧
      0 < bothArcs.d1) ∧
    (pending.Inv ∧ pending.head + 1 ≠ pending.tailW ∧ pending.wBusy = true ∧ 0 < pending.d1) :=
  ⟨⟨bothArcs_inv, by decide, by decide, by decide, by decide⟩, ⟨pending_inv, by decide, by decide, by decide⟩⟩
theorem witness_FifoOrderAcrossAnyInterleaving :
    ∃ (acts : List Act) (s t : State), s.Inv ∧ Act.agent .rst ∉ acts ∧ runActs acts s = .next t ∧
      acceptedDuring acts s = [0x2A] :=
  ⟨[.agent .weng, .agent .syncH], pending, _, pending_inv, by decide, rfl, by decide⟩
theorem witness_AtAQuiescentPointEveryViewIsExact : stored.quiescent = true ∧ stored.size.toNat = 1 := by decide
theorem witness_APushCompletionStaysEnabled :
    ∃ (s t : State) (a : Agent), s.Inv ∧ enabled .weng s = true ∧ a ≠ .weng ∧ a ≠ .rst ∧ runAgent a s = .next t ∧
      t.tailW.toNat ≠ s.tailW.toNat :=
  ⟨pending, pending.syncTStep, .syncT, pending_inv, by decide, by decide, by decide, rfl, by decide⟩
theorem witness_ASleepCompletionStaysEnabled :
    ∃ (s t : State) (a : Agent), enabled .teng s = true ∧ a ≠ .teng ∧ a ≠ .rst ∧ runAgent a s = .next t :=
  ⟨sleeping 5 5, _, .tick, by decide, by decide, by decide, rfl⟩

/-- A run in which WENG is always given the step. -/
def wengRun : InfiniteRun where
  state := fun n => match n with
    | 0 => pending
    | _ + 1 => pending.wengComplete
  act := fun _ => .agent .weng
  moves := fun n => match n with
    | 0 => rfl
    | _ + 1 => rfl

theorem witness_AFairRunCompletesAPendingPush :
    wengRun.weaklyFair .weng ∧ (∀ m, wengRun.act m ≠ .agent .rst) ∧ (wengRun.state 0).Inv ∧
      enabled .weng (wengRun.state 0) = true :=
  ⟨fun n _ => ⟨n, le_rfl, rfl⟩, fun _ h => (by cases h), pending_inv, by decide⟩
/-- A presented POP. -/
def popCmd : Cmd := ⟨0b01001, 0, 0, 0⟩

/-- A run that stays in one state, by ends of ack pulses at a port whose ack is low already. -/
def idleRun (s : State) (p : Port) (h : runAct (.quiet p) s = .next s) : InfiniteRun where
  state := fun _ => s
  act := fun _ => .quiet p
  moves := fun _ => h

theorem idle_fair {s : State} {p : Port} {h : runAct (.quiet p) s = .next s} {a : Agent} (he : enabled a s = false) :
    (idleRun s p h).weaklyFair a :=
  fun n hn => absurd (hn n le_rfl) (by simp [idleRun, he])

theorem idle_stops {s : State} {p : Port} {h : runAct (.quiet p) s = .next s} {c : Clock} (hc : Port.clock p ≠ c) :
    (idleRun s p h).stops c :=
  ⟨0, fun _ _ e => hc (Option.some.inj e)⟩

/-- R261, third item, with `wclk` stopped: WENG's step stays enabled and no step of its domain is taken. -/
theorem test_stopped_wclk_hangs : enabled .weng pending = true ∧ (idleRun pending .r rfl).hangs :=
  ⟨by decide,
    ⟨.inr (idle_fair (by decide)), .inl ⟨.wclk, rfl, idle_stops (by decide)⟩,
      .inl ⟨.wclk, rfl, idle_stops (by decide)⟩, .inr (idle_fair (by decide))⟩,
    0, .inl fun _ _ => rfl⟩
/-- R261, third item, with `tclk` stopped and the target reached. -/
theorem test_stopped_tclk_hangs : enabled .teng (sleeping 5 5) = true ∧ (idleRun (sleeping 5 5) .w rfl).hangs :=
  ⟨by decide,
    ⟨.inr (idle_fair (by decide)), .inr (idle_fair (by decide)), .inr (idle_fair (by decide)),
      .inl ⟨.tclk, rfl, idle_stops (by decide)⟩⟩,
    0, .inr fun _ _ => rfl⟩
/-- While `wclk` runs, leaving WENG's enabled step untaken is unfair, so it is no hang. -/
theorem test_unfair_run_is_no_hang : ¬ (idleRun pending .w rfl).hangs := by
  rintro ⟨⟨-, -, h, -⟩, -⟩
  have he : enabled .weng pending = true := by decide
  obtain ⟨c, hc, n, hs⟩ := stops_of_untaken (n := 0) h (fun _ _ => he) (fun _ _ e => nomatch e)
  exact hs n le_rfl hc
/-- R261, second item: with every agent treated fairly, a target of 2^CW is a hang. -/
theorem test_unreachable_target_hangs : (idleRun (sleeping 3 16) .t rfl).hangs :=
  (hangs_of_fair ⟨idle_fair (by decide), idle_fair (by decide), idle_fair (by decide), idle_fair (by decide)⟩).mpr
    ⟨0, .inr fun _ _ => rfl⟩

/-- A run without end in which RREQ keeps issuing POP: the host presents a POP at even steps, and RREQ issues it at odd
ones (70_reset_and_hazards.md R262 item 3). -/
def popAct (n : Nat) : Act := if n % 2 = 0 then .present .r [popCmd] else .agent .rreq

/-- The states of that run, from a block just reset. -/
def popState : Nat → State
  | 0 => State.reset
  | n + 1 => after State.reset (runAct (popAct n) (popState n))

/-- The FIFO is empty in the consumer's view, and before an odd step a POP is presented. -/
def popReady (n : Nat) (s : State) : Prop := s.tail = s.headR ∧ (n % 2 = 1 → s.rCmds = [popCmd])

theorem popAct_moves (n : Nat) (s : State) (h : popReady n s) :
    ∃ t : State, runAct (popAct n) s = .next t ∧ popReady (n + 1) t := by
  obtain ⟨hs, hc⟩ := h
  rcases Nat.mod_two_eq_zero_or_one n with h | h
  · refine ⟨s.withPresented .r [popCmd], ?_, hs, fun _ => rfl⟩
    simp [popAct, h, runAct]
  · refine ⟨(s.withPresented .r []).completeR .pop .empty none, ?_, hs, fun h' => by omega⟩
    have he : (s.withPresented .r []).emptyR = true := beq_iff_eq.mpr hs
    have hd : decode popCmd = .ok .pop := rfl
    simp [popAct, h, runAct, runAgent, requesterStep, State.presented, hc h, State.ready, State.rReady, hd,
      Instr.port?, exec, execPop, issueR, he]

theorem popState_ready : ∀ n, popReady n (popState n)
  | 0 => ⟨rfl, fun h => by simp at h⟩
  | n + 1 => by
    obtain ⟨t, ht, h⟩ := popAct_moves n _ (popState_ready n)
    simpa [popState, after, look, ht] using h

theorem popState_moves (n : Nat) : runAct (popAct n) (popState n) = .next (popState (n + 1)) := by
  obtain ⟨t, ht, -⟩ := popAct_moves n _ (popState_ready n)
  simp [popState, after, look, ht]

/-- The run above. -/
def popRun : InfiniteRun where
  state := popState
  act := popAct
  moves := popState_moves

theorem test_a_requester_can_issue_without_end : popRun.popsKeepBeingIssued := fun n =>
  ⟨2 * n + 1, by omega, by simp [popRun, popAct], _, _, (popState_ready (2 * n + 1)).2 (by omega), rfl⟩
theorem witness_OnlyTickInitAndResetWriteTheCount :
    ∃ s t : State, runAgent .tick s = .next t ∧ t.count.toNat ≠ s.count.toNat :=
  ⟨counting cw4 15, _, rfl, by decide⟩
theorem witness_OnlyADroppedPushCountsInOvf :
    ∃ s t : State, runAgent .wreq s = .next t ∧ t.ovf ≠ s.ovf :=
  ⟨{ fifo 0 0 7 7 with wCmds := [⟨0b00001, 7, 0, 0⟩] }, _, rfl, by decide⟩
theorem witness_EachIndexIsWrittenByItsOwnDomain :
    (∃ t, runAgent .weng pending = .next t ∧ t.head.toNat ≠ pending.head.toNat) ∧
    (∃ t, runAgent .rreq { stored with rCmds := [⟨0b01001, 0, 0, 0⟩] } = .next t ∧ t.tail.toNat ≠ stored.tail.toNat) ∧
    (∃ t, runAgent .syncH (fifo 7 1 7 0) = .next t ∧ t.headR.toNat ≠ (fifo 7 1 7 0).headR.toNat) ∧
    (∃ t, runAgent .syncT (fifo 7 1 7 0) = .next t ∧ t.tailW.toNat ≠ (fifo 7 1 7 0).tailW.toNat) :=
  ⟨⟨_, rfl, by decide⟩, ⟨_, rfl, by decide⟩, ⟨_, rfl, by decide⟩, ⟨_, rfl, by decide⟩⟩
theorem witness_FifoCommandsDoNotSeeTheCounter :
    Instr.port? .pop ≠ some .t ∧ ∃ t, exec .pop stored = .next t := ⟨by decide, _, rfl⟩
theorem witness_CounterCommandsChangeOnlyTheCounter :
    Instr.port? .init = some .t ∧ ∃ t, exec .init (counting cw4 9) = .next t := ⟨by decide, _, rfl⟩
theorem witness_StepsKeepTheParametersAndTheRecordedHistory :
    ∃ s t : State, step s = .next t ∧ s.history.length = 1 ∧ t.history.length = 2 :=
  ⟨{ stored with rCmds := [⟨0b01001, 0, 0, 0⟩], sched := [.agent .rreq] }, _, rfl, rfl, rfl⟩
theorem witness_ReservedStatusCodesAreNeverProduced : ∃ t : State, t.reachable ∧ t.wStatus = 3 :=
  ⟨_, ⟨Config.standard, [⟨0b00111, 0, 0, 0⟩], [], [], [.agent .wreq], 1, rfl⟩, by decide⟩

end Sys2Proof.Tests
end

section
/-! PROOFS. 00_scope.md: what elaboration admits (R12), the Gray code of an index and its inverse (R15), and an agent
whose step is not enabled (R18). -/

namespace Sys2Proof.Proofs.Scope

open Sys2Proof Sys2Proof.Machine

/-! ### The Gray code of an index -/

@[simp] theorem getLsbD_gray {n : Nat} (b : BitVec n) (i : Nat) :
    (gray b).getLsbD i = (b.getLsbD i ^^ b.getLsbD (i + 1)) := by
  simp [gray, Nat.add_comm]

@[simp] theorem getLsbD_xorShifts_zero {n : Nat} (g : BitVec n) (i : Nat) :
    (xorShifts g 0).getLsbD i = g.getLsbD i := rfl

/-- One more shift takes in the bit `k + 1` places up. -/
@[simp] theorem getLsbD_xorShifts_succ {n : Nat} (g : BitVec n) (k i : Nat) :
    (xorShifts g (k + 1)).getLsbD i = ((xorShifts g k).getLsbD i ^^ g.getLsbD (k + 1 + i)) := by
  simp [xorShifts]

/-- The bits from `i` upward are bit `i` and the bits from `i + 1` upward. -/
theorem getLsbD_xorShifts_succ_eq_xor_next {n : Nat} (g : BitVec n) (k i : Nat) :
    (xorShifts g (k + 1)).getLsbD i = (g.getLsbD i ^^ (xorShifts g k).getLsbD (i + 1)) := by
  induction k with
  | zero => simp [Nat.add_comm]
  | succ k ih =>
    calc (xorShifts g (k + 2)).getLsbD i
        = ((xorShifts g (k + 1)).getLsbD i ^^ g.getLsbD (k + 1 + 1 + i)) := getLsbD_xorShifts_succ g (k + 1) i
      _ = (g.getLsbD i ^^ ((xorShifts g k).getLsbD (i + 1) ^^ g.getLsbD (k + 1 + (i + 1)))) := by
          rw [ih, Bool.xor_assoc, Nat.add_right_comm (k + 1) 1 i, Nat.add_assoc (k + 1) i 1]
      _ = (g.getLsbD i ^^ (xorShifts g (k + 1)).getLsbD (i + 1)) := by rw [getLsbD_xorShifts_succ g k (i + 1)]

/-- The recurrence of R15 at every bit; beyond the top bit it reads 0. -/
theorem getLsbD_bin {n : Nat} (g : BitVec n) (i : Nat) :
    (bin g).getLsbD i = ((bin g).getLsbD (i + 1) ^^ g.getLsbD i) := by
  cases n with
  | zero => simp
  | succ m =>
    have hbeyond : g.getLsbD (m + 1 + (i + 1)) = false := g.getLsbD_of_ge _ (by omega)
    rw [bin, getLsbD_xorShifts_succ_eq_xor_next g m i, getLsbD_xorShifts_succ g m (i + 1), hbeyond,
      Bool.xor_false, Bool.xor_comm]

theorem getLsbD_bin_top {n : Nat} (g : BitVec (n + 1)) : (bin g).getLsbD n = g.getLsbD n := by
  rw [getLsbD_bin, (bin g).getLsbD_of_ge (n + 1) (Nat.le_refl _), Bool.false_xor]

/-- The exclusive or of neighbouring bits telescopes. -/
theorem getLsbD_xorShifts_gray {n : Nat} (b : BitVec n) (k i : Nat) :
    (xorShifts (gray b) k).getLsbD i = (b.getLsbD i ^^ b.getLsbD (k + 1 + i)) := by
  induction k with
  | zero => simp [Nat.add_comm]
  | succ k ih =>
    rw [getLsbD_xorShifts_succ, ih, getLsbD_gray, Bool.xor_assoc, ← Bool.xor_assoc (b.getLsbD (k + 1 + i)),
      Bool.xor_self, Bool.false_xor, Nat.add_right_comm (k + 1) i 1]

theorem bin_gray {n : Nat} (b : BitVec n) : bin (gray b) = b := by
  refine BitVec.eq_of_getLsbD_eq fun i _ => ?_
  rw [bin, getLsbD_xorShifts_gray, b.getLsbD_of_ge (n + 1 + i) (by omega), Bool.xor_false]

/-! ### Gray values of successive indices -/

/-- Every bit of `b` below bit `j` is 1: the carry of `b + 1` reaches bit `j`. -/
def onesBelow {n : Nat} (b : BitVec n) (j : Nat) : Prop := ∀ k, k < j → b.getLsbD k = true

theorem onesBelow_zero {n : Nat} (b : BitVec n) : onesBelow b 0 := fun _ hk => absurd hk (Nat.not_lt_zero _)

theorem onesBelow_mono {n : Nat} {b : BitVec n} {i j : Nat} (h : onesBelow b j) (hij : i ≤ j) : onesBelow b i :=
  fun k hk => h k (Nat.lt_of_lt_of_le hk hij)

theorem onesBelow_succ {n : Nat} (b : BitVec n) (j : Nat) :
    onesBelow b (j + 1) ↔ onesBelow b j ∧ b.getLsbD j = true :=
  Nat.forall_lt_succ_right

/-- The carry of `b + 0 + 1` into bit `j`. -/
theorem carry_one_iff {n : Nat} (b : BitVec n) (j : Nat) : BitVec.carry j b 0 true = true ↔ onesBelow b j := by
  induction j with
  | zero => simp [BitVec.carry_zero, onesBelow_zero]
  | succ j ih => rw [BitVec.carry_succ, onesBelow_succ, ← ih]; simp [Bool.atLeastTwo, and_comm]

/-- Adding 1 flips bit `j` exactly where the carry reaches it. -/
theorem getLsbD_succ_ne_iff {n : Nat} (b : BitVec n) {j : Nat} (hj : j < n) :
    b.getLsbD j ≠ (b + 1).getLsbD j ↔ onesBelow b j := by
  have hone : b + 1 = b + 0 + BitVec.setWidth n (BitVec.ofBool true) := by
    simpa using BitVec.eq_of_toNat_eq (by simp)
  rw [hone, BitVec.getLsbD_add_add_bool hj, ← carry_one_iff]
  cases b.getLsbD j <;> simp

/-- The top of the run of bits that adding 1 flips. -/
theorem exists_last_flipped {n : Nat} (b : BitVec n) (hn : 1 ≤ n) :
    ∃ i, i < n ∧ ∀ j, j < n → (onesBelow b j ↔ j ≤ i) := by
  classical
  have htop : Nat.findGreatest (onesBelow b) (n - 1) ≤ n - 1 := Nat.findGreatest_le _
  refine ⟨Nat.findGreatest (onesBelow b) (n - 1), by omega, fun j hj => ⟨fun h => ?_, fun h => ?_⟩⟩
  · exact Nat.le_findGreatest (by omega) h
  · exact onesBelow_mono (Nat.findGreatest_spec (Nat.zero_le _) (onesBelow_zero b)) h

theorem xor_ne_xor_iff : ∀ x x' y y' : Bool, (x ^^ x') ≠ (y ^^ y') ↔ ¬ (x ≠ y ↔ x' ≠ y') := by decide

/-- Gray values differ in bit `j` exactly where just one of the bits `j` and `j + 1` was flipped. -/
theorem getLsbD_gray_ne_iff {n : Nat} (b c : BitVec n) (j : Nat) :
    (gray b).getLsbD j ≠ (gray c).getLsbD j ↔
      ¬ (b.getLsbD j ≠ c.getLsbD j ↔ b.getLsbD (j + 1) ≠ c.getLsbD (j + 1)) := by
  rw [getLsbD_gray, getLsbD_gray]
  exact xor_ne_xor_iff _ _ _ _

theorem gray_succ_differs_in_one_bit {n : Nat} (b : BitVec n) (hn : 1 ≤ n) :
    ∃ i, i < n ∧ ∀ j, j < n → ((gray b).getLsbD j ≠ (gray (b + 1)).getLsbD j ↔ j = i) := by
  obtain ⟨i, hi, hflip⟩ := exists_last_flipped b hn
  refine ⟨i, hi, fun j hj => ?_⟩
  have hthis : b.getLsbD j ≠ (b + 1).getLsbD j ↔ j ≤ i := (getLsbD_succ_ne_iff b hj).trans (hflip j hj)
  have hnext : b.getLsbD (j + 1) ≠ (b + 1).getLsbD (j + 1) ↔ j + 1 ≤ i := by
    by_cases hj' : j + 1 < n
    · exact (getLsbD_succ_ne_iff b hj').trans (hflip (j + 1) hj')
    · have hout : n ≤ j + 1 := Nat.le_of_not_lt hj'
      exact iff_of_false (fun h => h ((b.getLsbD_of_ge _ hout).trans ((b + 1).getLsbD_of_ge _ hout).symm)) (by omega)
  rw [getLsbD_gray_ne_iff, hthis, hnext]
  omega

/-- Settles O39: `bin` is the recurrence bit by bit, its bits telescope on a Gray value, and adding 1 flips a run of bits
from bit 0, of which the Gray value sees only the top end. -/
theorem grayCodeOfAnIndex : Obligations.GrayCodeOfAnIndex :=
  ⟨fun _ _ => rfl, fun _ => getLsbD_bin_top, fun _ g i _ => getLsbD_bin g i, fun _ => bin_gray,
    fun _ => gray_succ_differs_in_one_bit, fun _ => ⟨Subsingleton.elim _ _, Subsingleton.elim _ _⟩⟩

/-! ### Elaboration -/

/-- The configuration elaborated is the one that has the parameters given. -/
theorem elaborate_eq_ok_iff (r : RawConfig) (c : Config) :
    elaborate r = .ok c ↔ c.N = r.depth ∧ c.W = r.W ∧ c.S = r.S ∧ c.CW = r.CW := by
  constructor
  · intro h
    unfold elaborate at h
    split at h
    next hpow =>
      split at h
      · cases h
        exact ⟨hpow, rfl, rfl, rfl⟩
      · cases h
    · cases h
  · obtain ⟨depth, W, S, CW⟩ := r
    obtain ⟨A, W', S', CW', hok⟩ := c
    rintro ⟨rfl, rfl, rfl, rfl⟩
    simp [elaborate, Config.N, hok]

/-- The check of R12 as the ranges it states. -/
theorem exists_config_iff (A W S CW : Nat) :
    (∃ c : Config, c.A = A ∧ c.W = W ∧ c.S = S ∧ c.CW = CW) ↔
      A ≤ 32 ∧ 1 ≤ W ∧ W ≤ 64 ∧ 2 ≤ S ∧ 1 ≤ CW ∧ CW ≤ 64 := by
  constructor
  · rintro ⟨c, rfl, rfl, rfl, rfl⟩
    exact config_bounds c
  · intro h
    exact ⟨⟨A, W, S, CW, by simpa [Config.admits, and_assoc] using h⟩, rfl, rfl, rfl, rfl⟩

theorem elaborate_succeeds_iff (r : RawConfig) :
    (∃ c, elaborate r = .ok c) ↔
      (∃ k, k ≤ 32 ∧ r.depth = 2 ^ k) ∧ 1 ≤ r.W ∧ r.W ≤ 64 ∧ 2 ≤ r.S ∧ 1 ≤ r.CW ∧ r.CW ≤ 64 := by
  simp only [elaborate_eq_ok_iff]
  constructor
  · rintro ⟨c, hN, hparams⟩
    obtain ⟨hA, hrest⟩ := (exists_config_iff c.A r.W r.S r.CW).mp ⟨c, rfl, hparams⟩
    exact ⟨⟨c.A, hA, hN.symm⟩, hrest⟩
  · rintro ⟨⟨k, hk, hdepth⟩, hrest⟩
    obtain ⟨c, hA, hparams⟩ := (exists_config_iff k r.W r.S r.CW).mpr ⟨hk, hrest⟩
    exact ⟨c, by rw [Config.N, hA, hdepth], hparams⟩

theorem elaborate_of_depth_not_two_pow {r : RawConfig} (h : ∀ k, r.depth ≠ 2 ^ k) :
    elaborate r = .error .misconfiguration :=
  if_neg fun hpow => h _ hpow.symm

/-- Settles O3: elaboration answers the configuration with the parameters given, which exists exactly in the ranges. -/
theorem elaborationAdmitsExactlyTheLegalConfigurations :
    Obligations.ElaborationAdmitsExactlyTheLegalConfigurations := fun r =>
  ⟨elaborate_succeeds_iff r, fun c => (elaborate_eq_ok_iff r c).mp, elaborate_of_depth_not_two_pow⟩

/-! ### An agent whose step is not enabled -/

/-- A requester passes where its port is not ready or it presents nothing (30_encoding.md R93). -/
theorem requesterStep_of_not_enabled {p : Port} {s : State} (h : (s.ready p && !(s.presented p).isEmpty) = false) :
    requesterStep p s = .next s := by
  unfold requesterStep
  split
  · rfl
  next c rest hc =>
    have hready : s.ready p = false := by simpa [hc] using h
    simp [hready]

/-- Settles O33, by cases on the agent. -/
theorem anAgentThatIsNotEnabledChangesNothing : Obligations.AnAgentThatIsNotEnabledChangesNothing := by
  intro a s h
  cases a with
  | wreq => exact requesterStep_of_not_enabled (p := .w) h
  | rreq => exact requesterStep_of_not_enabled (p := .r) h
  | treq => exact requesterStep_of_not_enabled (p := .t) h
  | weng => exact if_neg (Bool.eq_false_iff.mp h)
  | teng => exact if_neg (Bool.eq_false_iff.mp h)
  | syncH => exact if_pos (bne_eq_false_iff_eq.mp h)
  | syncT => exact if_pos (bne_eq_false_iff_eq.mp h)
  | tick => exact if_pos (by simpa [enabled] using h)
  | rst => cases h

end Sys2Proof.Proofs.Scope
end

section
/-! PROOFS. 10_state.md: the synchronizer chain (R32, R37), who writes each counting register (R30, R31, R33, R36, R39,
R41), the parameters and the history (R44), the reset values (R48), the read of an empty slot (R35), and the end of an
ack pulse (R34, R38, R40). -/

namespace Sys2Proof.Proofs.Registers

open Sys2Proof Sys2Proof.Machine

/-! ### The synchronizer chain -/

@[simp] theorem length_edge {n : Nat} (c : SyncChain n) (x : BitVec n) : (c.edge x).length = c.length := by
  simp [SyncChain.edge]

/-- The chain holds the newest samples, the last one first, and behind them what is left of its old stages. -/
theorem edges_eq_take {n : Nat} (c : SyncChain n) (samples : List (BitVec n)) :
    c.edges samples = (samples.reverse ++ c).take c.length := by
  induction samples generalizing c with
  | nil => simp [SyncChain.edges]
  | cons x rest ih =>
    calc c.edges (x :: rest)
        = (c.edge x).edges rest := rfl
      _ = (rest.reverse ++ (x :: c).take c.length).take c.length := by
          rw [ih, length_edge, SyncChain.edge, List.dropLast_eq_take, List.length_cons, Nat.add_sub_cancel]
      _ = ((x :: rest).reverse ++ c).take c.length := by
          simp [List.take_append, List.take_take]

theorem gray_zero (n : Nat) : gray (0 : BitVec n) = 0 := by simp [gray]

/-- Every stage holds the Gray value of an index: the last `S` sampled ones, and 0 at first. -/
theorem edges_reset_gray {n : Nat} (S : Nat) (xs : List (BitVec n)) :
    (SyncChain.reset n S).edges (xs.map gray) = ((xs.reverse ++ List.replicate S 0).take S).map gray := by
  rw [edges_eq_take, SyncChain.reset, List.length_replicate, List.map_take, List.map_append, List.map_reverse,
    List.map_replicate, gray_zero]

/-- The view recovers the index whose Gray value stands in the last stage (00_scope.md R17). -/
theorem view_map_gray {n : Nat} (indices : List (BitVec n)) :
    SyncChain.view (indices.map gray) = indices.getLastD 0 := by
  rw [SyncChain.view, ← gray_zero n, List.getLastD_map, Scope.bin_gray, gray_zero]

/-- Of `S` stages that the samples `xs` enter in order, the last holds the one entered `S` edges ago. -/
theorem getLastD_last_samples {α : Type} (S : Nat) (xs : List α) (a : α) (hS : 1 ≤ S) :
    ((xs.reverse ++ List.replicate S a).take S).getLastD a =
      if S ≤ xs.length then xs.getD (xs.length - S) a else a := by
  have hlen : ((xs.reverse ++ List.replicate S a).take S).length = S := by simp
  rw [List.getLastD_eq_getLast?, List.getLast?_eq_getElem?, hlen, List.getElem?_take_of_lt (by omega)]
  split
  · next hle =>
    rw [List.getElem?_append_left (by rw [List.length_reverse]; omega), List.getElem?_reverse (by omega),
      ← List.getD_eq_getElem?_getD]
    congr 1
    omega
  · next hlt =>
    rw [List.getElem?_append_right (by rw [List.length_reverse]; omega), List.getElem?_replicate,
      if_pos (by omega), Option.getD_some]

/-- Settles O40: the chain holds Gray values of indices throughout, and its last stage the one sampled `S` edges ago. -/
theorem aChainShowsTheIndexSampledSEdgesAgo : Obligations.AChainShowsTheIndexSampledSEdgesAgo := fun n S xs hS =>
  calc ((SyncChain.reset n S).edges (xs.map gray)).view
      = ((xs.reverse ++ List.replicate S 0).take S).getLastD 0 := by rw [edges_reset_gray, view_map_gray]
    _ = if S ≤ xs.length then xs.getD (xs.length - S) 0 else 0 := getLastD_last_samples S xs 0 hS

/-! ### The registers that count -/

/-- The registers that only count modulo a power of two: the indices, the views, `ovf` and the count. Those whose width
is a parameter stand as numbers, so that the values of two states can be compared. -/
structure Counters where
  head  : Nat
  tail  : Nat
  headR : Nat
  tailW : Nat
  ovf   : BitVec 32
  count : Nat

/-- Their values in a state. -/
def counters (s : State) : Counters where
  head := s.head.toNat
  tail := s.tail.toNat
  headR := s.headR.toNat
  tailW := s.tailW.toNat
  ovf := s.ovf
  count := s.count.toNat

theorem counters_withPresented (s : State) (p : Port) (cs : List Cmd) :
    counters (s.withPresented p cs) = counters s := by
  cases p <;> rfl

/-- The agent that issues a port's commands (10_state.md R45). -/
def requester : Port → Agent
  | .w => .wreq
  | .r => .rreq
  | .t => .treq

/-- Every way an agent's step can leave the counting registers (10_state.md R41): each case but `reset` names at most
one register and its writer. -/
inductive CounterWrite (s : State) : Agent → Counters → Prop
  | unwritten {a} : CounterWrite s a (counters s)
  | pushed {a} (ha : a = .wreq ∨ a = .weng) : CounterWrite s a { counters s with head := (s.head + 1).toNat }
  | dropped {c cs d} (hc : s.wCmds = c :: cs) (hd : decode c = .ok (.push d)) (hf : s.fullW = true) :
      CounterWrite s .wreq { counters s with ovf := s.ovf + 1 }
  | popped : CounterWrite s .rreq { counters s with tail := (s.tail + 1).toNat }
  | cleared {c cs} (hc : s.tCmds = c :: cs) (hd : decode c = .ok .init) :
      CounterWrite s .treq { counters s with count := (0 : BitVec s.cfg.CW).toNat }
  | headSeen : CounterWrite s .syncH { counters s with headR := (s.headR + 1).toNat }
  | tailSeen : CounterWrite s .syncT { counters s with tailW := (s.tailW + 1).toNat }
  | ticked : CounterWrite s .tick { counters s with count := (s.count + 1).toNat }
  | reset : CounterWrite s .rst (counters s.resetStep)

/-- What a presented command writes, by its effect. -/
theorem counterWrite_of_execEffect {s t : State} {p : Port} {c : Cmd} {rest : List Cmd} {i : Instr}
    (hc : s.presented p = c :: rest) (hd : decode c = .ok i) (hp : i.port? = some p)
    (he : ExecEffect (s.withPresented p rest) i t) : CounterWrite s (requester p) (counters t) := by
  cases he with
  | dropped d hf =>
    cases hp
    exact .dropped hc hd hf
  | pushed d | pushedAtOnce d =>
    cases hp
    exact .pushed (.inl rfl)
  | popped v =>
    cases hp
    exact .popped
  | cleared =>
    cases hp
    exact .cleared hc hd
  | _ =>
    have hkeep := counters_withPresented s p rest
    exact hkeep ▸ .unwritten

/-- What an agent's step writes, by its effect. -/
theorem counterWrite_of_agentEffect {s t : State} {a : Agent} (h : AgentEffect s a t) :
    CounterWrite s a (counters t) := by
  cases h with
  | nothing => exact .unwritten
  | issues p c rest i _ ha hc _ hd hp he =>
    obtain rfl : a = requester p := by cases p <;> exact ha
    exact counterWrite_of_execEffect hc hd hp he
  | wengCompletes => exact .pushed (.inr rfl)
  | tengCompletes => exact .unwritten
  | syncH => exact .headSeen
  | syncT => exact .tailSeen
  | tick => exact .ticked
  | rst => exact .reset

theorem runAgent_counterWrite {s t : State} {a : Agent} (h : runAgent a s = .next t) :
    CounterWrite s a (counters t) :=
  counterWrite_of_agentEffect (runAgent_effect h)

theorem toNat_succ_mod {n : Nat} (x : BitVec n) : (x + 1).toNat = (x.toNat + 1) % 2 ^ n := by
  simp [BitVec.toNat_add]

namespace CounterWrite

variable {s : State} {a : Agent} {n : Counters}

theorem count_cases (h : CounterWrite s a n) (hne : n.count ≠ s.count.toNat) :
    (a = .tick ∧ n.count = (s.count.toNat + 1) % 2 ^ s.cfg.CW) ∨ (a = .rst ∧ n.count = 0) ∨
      (a = .treq ∧ n.count = 0 ∧ ∃ c cs, s.tCmds = c :: cs ∧ decode c = .ok .init) := by
  cases h with
  | ticked => exact .inl ⟨rfl, toNat_succ_mod s.count⟩
  | reset => exact .inr (.inl ⟨rfl, BitVec.toNat_zero⟩)
  | cleared hc hd => exact .inr (.inr ⟨rfl, BitVec.toNat_zero, _, _, hc, hd⟩)
  | _ => exact absurd rfl hne

theorem ovf_cases (h : CounterWrite s a n) (hne : n.ovf ≠ s.ovf) :
    a = .rst ∨ (a = .wreq ∧ s.head + 1 = s.tailW ∧ n.ovf = s.ovf + 1 ∧
      ∃ c cs d, s.wCmds = c :: cs ∧ decode c = .ok (.push d)) := by
  cases h with
  | dropped hc hd hf => exact .inr ⟨rfl, fullW_eq_true.mp hf, rfl, _, _, _, hc, hd⟩
  | reset => exact .inl rfl
  | _ => exact absurd rfl hne

theorem head_cases (h : CounterWrite s a n) (hr : a ≠ .rst) (hne : n.head ≠ s.head.toNat) :
    (a = .wreq ∨ a = .weng) ∧ n.head = (s.head.toNat + 1) % s.cfg.N := by
  cases h with
  | pushed ha => exact ⟨ha, toNat_succ_mod s.head⟩
  | reset => exact absurd rfl hr
  | _ => exact absurd rfl hne

theorem tail_cases (h : CounterWrite s a n) (hr : a ≠ .rst) (hne : n.tail ≠ s.tail.toNat) :
    a = .rreq ∧ n.tail = (s.tail.toNat + 1) % s.cfg.N := by
  cases h with
  | popped => exact ⟨rfl, toNat_succ_mod s.tail⟩
  | reset => exact absurd rfl hr
  | _ => exact absurd rfl hne

theorem headR_cases (h : CounterWrite s a n) (hr : a ≠ .rst) (hne : n.headR ≠ s.headR.toNat) :
    a = .syncH ∧ n.headR = (s.headR.toNat + 1) % s.cfg.N := by
  cases h with
  | headSeen => exact ⟨rfl, toNat_succ_mod s.headR⟩
  | reset => exact absurd rfl hr
  | _ => exact absurd rfl hne

theorem tailW_cases (h : CounterWrite s a n) (hr : a ≠ .rst) (hne : n.tailW ≠ s.tailW.toNat) :
    a = .syncT ∧ n.tailW = (s.tailW.toNat + 1) % s.cfg.N := by
  cases h with
  | tailSeen => exact ⟨rfl, toNat_succ_mod s.tailW⟩
  | reset => exact absurd rfl hr
  | _ => exact absurd rfl hne

end CounterWrite

/-- Settles O53: of the writes an agent can do, three touch the count. -/
theorem onlyTickInitAndResetWriteTheCount : Obligations.OnlyTickInitAndResetWriteTheCount :=
  fun _ _ _ h hne => (runAgent_counterWrite h).count_cases hne

/-- Settles O54: of the writes an agent can do, two touch `ovf`. -/
theorem onlyADroppedPushCountsInOvf : Obligations.OnlyADroppedPushCountsInOvf :=
  fun _ _ _ h hne => (runAgent_counterWrite h).ovf_cases hne

/-- Settles O55, one index at a time: each has one kind of write beside reset. -/
theorem eachIndexIsWrittenByItsOwnDomain : Obligations.EachIndexIsWrittenByItsOwnDomain := fun _ _ _ hr h =>
  have hw := runAgent_counterWrite h
  ⟨hw.head_cases hr, hw.tail_cases hr, hw.headR_cases hr, hw.tailW_cases hr⟩

/-! ### The parameters and the history -/

/-- A later state has the same parameters, and a history that goes on from the earlier one. -/
def Extends (s t : State) : Prop := t.cfg = s.cfg ∧ ∃ new : List Event, t.history = s.history ++ new

theorem Extends.refl (s : State) : Extends s s := ⟨rfl, [], (List.append_nil _).symm⟩

theorem Extends.trans {s u t : State} (hsu : Extends s u) (hut : Extends u t) : Extends s t := by
  obtain ⟨hcfg, new, hnew⟩ := hsu
  obtain ⟨hcfg', new', hnew'⟩ := hut
  exact ⟨hcfg'.trans hcfg, new ++ new', by rw [hnew', hnew, List.append_assoc]⟩

theorem extends_withPresented (s : State) (p : Port) (cs : List Cmd) : Extends s (s.withPresented p cs) := by
  cases p <;> exact .refl s

theorem extends_ackLow (s : State) (p : Port) : Extends s (s.ackLow p) := by
  cases p <;> exact .refl s

/-- A command records one completion or, turned away or waiting, none. -/
theorem extends_of_execEffect {s t : State} {i : Instr} (h : ExecEffect s i t) : Extends s t := by
  cases h with
  | turnedAwayW | turnedAwayT | waitsW | waitsT => exact .refl _
  | _ => exact ⟨rfl, _, rfl⟩

theorem extends_of_agentEffect {s t : State} {a : Agent} (h : AgentEffect s a t) : Extends s t := by
  cases h with
  | issues p c rest i _ _ _ _ _ _ he => exact (extends_withPresented s p rest).trans (extends_of_execEffect he)
  | nothing | syncH | syncT | tick => exact .refl s
  | wengCompletes | tengCompletes | rst => exact ⟨rfl, _, rfl⟩

theorem extends_of_runAct {a : Act} {s t : State} (h : runAct a s = .next t) : Extends s t := by
  rcases runAct_effect h with ⟨g, -, he⟩ | ⟨p, -, rfl⟩ | ⟨p, cs, -, rfl⟩
  · exact extends_of_agentEffect he
  · exact extends_ackLow s p
  · exact extends_withPresented s p cs

theorem extends_of_step {s t : State} (h : step s = .next t) : Extends s t := by
  rcases step_next h with ⟨-, rfl⟩ | ⟨x, rest, -, hacts⟩
  · exact .refl t
  · have hrun : Extends { s with sched := rest } t :=
      runActs_induction Extends.refl Extends.trans extends_of_runAct hacts
    exact hrun

/-- Settles O58: every act extends the state, so a slot of the schedule does. -/
theorem stepsKeepTheParametersAndTheRecordedHistory : Obligations.StepsKeepTheParametersAndTheRecordedHistory :=
  fun _ _ => extends_of_step

/-! ### Reset values and the slot with no value -/

/-- Settles O1, register by register. -/
theorem resetGivesEveryStateItsResetValue : Obligations.ResetGivesEveryStateItsResetValue := fun c =>
  ⟨State.resetWith c, by simp⟩

/-- Settles O16: POP finds its view not empty, and then reads the slot at `tail`. -/
theorem popOfASlotWithNoValueFaults : Obligations.PopOfASlotWithNoValueFaults := by
  intro s hne hread
  have hitem : s.emptyR = false := emptyR_eq_false.mpr hne
  simp [exec, execPop, hitem, hread]

/-! ### The end of an ack pulse -/

/-- A slot whose only act is an edge with nothing to complete lowers the port's ack and does nothing else. -/
theorem runSlot_of_acts_quiet {x : Slot} {s : State} {p : Port} (h : x.acts s = [.quiet p]) :
    runSlot x s = .next (s.ackLow p) := by
  rw [runSlot, h]
  rfl

theorem wEdge_acts_quiet {s : State} {valid : Bool} (hwait : s.wBusy = false ∨ s.head + 1 = s.tailW)
    (hcmd : valid = false ∨ s.wBusy = true ∨ s.wCmds = []) : (Slot.wEdge valid 0).acts s = [.quiet .w] := by
  have hweng : s.wengEnabled = false := Bool.eq_false_iff.mpr fun h =>
    have ⟨hbusy, hfree⟩ := wengEnabled_iff.mp h
    hwait.elim (Bool.eq_false_iff.mp · hbusy) hfree
  have hidle : (valid && enabled .wreq s) = false := by
    rcases hcmd with h | h | h <;> simp [h, enabled, State.wReady]
  simp [Slot.acts, wPortAct, hweng, hidle]

theorem rEdge_acts_quiet {s : State} {valid : Bool} (hcmd : valid = false ∨ s.rCmds = []) :
    (Slot.rEdge valid 0).acts s = [.quiet .r] := by
  have hidle : (valid && enabled .rreq s) = false := by
    rcases hcmd with h | h <;> simp [h, enabled]
  simp [Slot.acts, rPortAct, hidle]

theorem tEdge_acts_quiet {s : State} {valid : Bool} (hwait : s.tBusy = false ∨ s.count.toNat < s.tTarget.toNat)
    (hcmd : valid = false ∨ s.tBusy = true ∨ s.tCmds = []) : (Slot.tEdge valid false).acts s = [.quiet .t] := by
  have hteng : s.tengEnabled = false := Bool.eq_false_iff.mpr fun h =>
    have ⟨hbusy, hreached⟩ := tengEnabled_iff.mp h
    hwait.elim (Bool.eq_false_iff.mp · hbusy) (Nat.not_lt.mpr hreached)
  have hidle : (valid && enabled .treq s) = false := by
    rcases hcmd with h | h | h <;> simp [h, enabled, State.tReady]
  simp [Slot.acts, tPortAct, tickAct, hteng, hidle]

/-- Settles O60: at each of these edges the port's only act is the quiet one. -/
theorem anAckFallsWhereNothingCompletes : Obligations.AnAckFallsWhereNothingCompletes :=
  ⟨fun _ => ⟨rfl, rfl, rfl⟩,
    fun _ _ hwait hcmd => runSlot_of_acts_quiet (wEdge_acts_quiet hwait hcmd),
    fun _ _ hcmd => runSlot_of_acts_quiet (rEdge_acts_quiet hcmd),
    fun _ _ hwait hcmd => runSlot_of_acts_quiet (tEdge_acts_quiet hwait hcmd)⟩

end Sys2Proof.Proofs.Registers
end

section
/-! PROOFS. 20_memory.md: the views' unit steps (R65), the invariant at reset and in every step (R67, R71), the read of
`tail` (R68), the slots a push leaves alone (R69), and FIFO order (R70). -/

namespace Sys2Proof.Proofs.Fifo

open Sys2Proof Sys2Proof.Machine

/-! ### The views -/

/-- Settles O32: each synchronizer's turn moves its view exactly where the view is behind. -/
theorem viewsMoveByUnitSteps : Obligations.ViewsMoveByUnitSteps := fun _ =>
  ⟨fun h => if_neg h, fun h => if_pos h, fun h => if_neg h, fun h => if_pos h⟩

/-! ### The invariant at reset -/

theorem inv_started (c : Config) (wCmds rCmds tCmds : List Cmd) (sched : List Slot) :
    (State.started c wCmds rCmds tCmds sched).Inv :=
  inv_reset ⟨rfl, rfl, rfl, rfl, rfl, rfl⟩ rfl ⟨rfl, rfl, rfl⟩ ⟨rfl, rfl⟩

/-- Settles O41: `State.reset` is one of the started blocks, with a host that presents nothing. -/
theorem theInvariantHoldsAfterReset : Obligations.TheInvariantHoldsAfterReset :=
  ⟨inv_started Config.standard [] [] [] [], inv_started⟩

/-! ### The invariant in every step -/

theorem inv_of_execEffect {s t : State} {i : Instr} (h : s.Inv) (he : ExecEffect s i t) : t.Inv := by
  cases he with
  | turnedAwayW | turnedAwayT => exact h
  | doneW m st rd _ _ hn hn' hn'' hst =>
    exact inv_doneW h m st rd (hst.imp_right .inr) fun _ => ⟨hn, hn', hn''⟩
  | dropped d =>
    exact inv_doneW (inv_frame h (s.ovf + 1) _ _ _ _ _ _ _ _ _ _ _ _ _ _ _) .push .full none (.inr (.inl rfl)) nofun
  | pushed d hf => exact inv_push h hf _ (.inl rfl)
  | pushedAtOnce d hf => exact inv_push h hf _ (.inr rfl)
  | waitsW d => exact inv_frame h _ true (itemOperand s.cfg d) false _ _ _ _ _ _ _ _ _ _ _ _
  | doneR m st rd _ _ hn hn' hn'' hst =>
    exact inv_doneR h m st rd (hst.imp_right .inr) fun _ => ⟨hn, hn', hn''⟩
  | popEmpty => exact inv_doneR h .pop .empty none (.inr (.inl rfl)) nofun
  | popped v hne => exact inv_pop h hne _
  | doneT m st rd _ _ hn hn' hn'' hst => exact inv_doneT h m st rd hst ⟨hn, hn', hn''⟩
  | cleared =>
    exact inv_doneT (inv_frame h _ _ _ _ _ _ _ 0 _ _ _ _ _ _ _ _) .init .ok none (.inl rfl) (by decide)
  | waitsT target => exact inv_frame h _ _ _ _ _ _ _ _ true target false _ _ _ _ _

/-- WENG's completion is a push of the latched item into a FIFO not full in the producer's view. -/
theorem inv_wengComplete {s : State} (h : s.Inv) (hw : s.wengEnabled = true) : s.wengComplete.Inv :=
  have ⟨_, hfree⟩ := wengEnabled_iff.mp hw
  inv_frame (inv_push h (fullW_eq_false.mpr hfree) s.wPdata (.inr rfl)) _ false _ _ _ _ _ _ _ _ _ _ _ _ _ _

theorem inv_tengComplete {s : State} (h : s.Inv) : s.tengComplete.Inv :=
  inv_doneT (inv_frame h _ _ _ _ _ _ _ _ false _ _ _ _ _ _ _) .sleepUntil .ok _ (.inl rfl) (by decide)

theorem inv_resetStep (s : State) : s.resetStep.Inv :=
  inv_reset ⟨rfl, rfl, rfl, rfl, rfl, rfl⟩ rfl ⟨rfl, rfl, rfl⟩ (by simp [State.pushes, State.pops])

theorem inv_of_agentEffect {s t : State} {a : Agent} (h : s.Inv) (he : AgentEffect s a t) : t.Inv := by
  cases he with
  | nothing => exact h
  | issues p c rest i _ _ _ _ _ _ he => exact inv_of_execEffect (inv_withPresented h p rest) he
  | wengCompletes hw => exact inv_wengComplete h hw
  | tengCompletes => exact inv_tengComplete h
  | syncH hne => exact inv_syncH h hne
  | syncT hne => exact inv_syncT h hne
  | tick => exact inv_frame h _ _ _ _ _ _ _ (s.count + 1) _ _ _ _ _ _ _ _
  | rst => exact inv_resetStep s

theorem inv_of_runAct {a : Act} {s t : State} (h : s.Inv) (hrun : runAct a s = .next t) : t.Inv := by
  rcases runAct_effect hrun with ⟨g, -, he⟩ | ⟨p, -, rfl⟩ | ⟨p, cs, -, rfl⟩
  · exact inv_of_agentEffect h he
  · exact inv_ackLow h p
  · exact inv_withPresented h p cs

/-- Settles O42: every act keeps the invariant, so a slot of the schedule does. -/
theorem everyStepKeepsTheInvariant : Obligations.EveryStepKeepsTheInvariant := fun _ _ h hstep =>
  step_keeps (P := State.Inv) (fun _ xs h => inv_withSched h xs) inv_of_runAct h hstep

/-! ### Every reachable state -/

/-- A run that reaches a next state took its first step to one, and went on from there. -/
theorem run_succ_next {M : Host.Core} {n : Nat} {s t : M.State} (h : M.run (n + 1) s = .next t) :
    ∃ u, M.step s = .next u ∧ M.run n u = .next t := by
  unfold Host.Core.run at h
  split at h
  · next u hu => exact ⟨u, hu, h⟩
  · cases h
  · cases h

theorem inv_of_run {n : Nat} {s t : State} (h : s.Inv) (hrun : Sys2Proof.core.run n s = .next t) : t.Inv := by
  induction n generalizing s with
  | zero =>
    obtain rfl := Host.Outcome.next.inj hrun
    exact h
  | succ n ih =>
    obtain ⟨u, hstep, hrest⟩ := run_succ_next hrun
    exact ih (everyStepKeepsTheInvariant s u h hstep) hrest

theorem inv_of_reachable {t : State} (h : t.reachable) : t.Inv := by
  obtain ⟨c, wCmds, rCmds, tCmds, sched, n, hrun⟩ := h
  exact inv_of_run (inv_started c wCmds rCmds tCmds sched) hrun

/-- Settles O45: conservation is a clause of the invariant. -/
theorem conservationInEveryReachableState : Obligations.ConservationInEveryReachableState :=
  fun _ h => (inv_of_reachable h).conserve

/-! ### The views bound the occupancy -/

/-- Full in the consumer's view, as a distance. -/
theorem d2_of_fullR {s : State} (h : s.headR + 1 = s.tail) : s.d2 = s.cfg.N - 1 := by
  have hlt := s.headR.isLt
  simp only [State.d2, Config.N, ← h, toNat_distance, toNat_succ_index]
  split_ifs <;> omega

/-- Settles O44: both views and the true occupancy are sums of the three distances. -/
theorem viewsBoundTheTrueOccupancy : Obligations.ViewsBoundTheTrueOccupancy := by
  intro s h
  have hsize := size_eq h.order
  have hsizeW := sizeW_eq h.order
  have hsizeR : s.sizeR.toNat = s.d2 := rfl
  have horder := h.order
  have hempty : s.head = s.tailW → s.sizeW.toNat = 0 := fun e => by simp [State.sizeW, e]
  refine ⟨hsize, by omega, by omega, by omega, fun e => ?_, fun e => ?_⟩
  · have := hempty e
    omega
  · have := d2_of_fullR e
    omega

/-! ### No fault -/

theorem issueW_fault {s : State} {k : State → Result} {f : Fault} (h : issueW s k = .fault f) : k s = .fault f := by
  unfold issueW at h
  split at h
  · exact h
  · cases h

theorem issueT_fault {s : State} {k : State → Result} {f : Fault} (h : issueT s k = .fault f) : k s = .fault f := by
  unfold issueT at h
  split at h
  · exact h
  · cases h

/-- The one way a command faults: a POP that finds an item in the consumer's view and no value in slot `tail`. -/
theorem exec_fault {i : Instr} {s : State} {f : Fault} (h : exec i s = .fault f) :
    s.emptyR = false ∧ s.mem.read s.tail.toNat = none := by
  cases i with
  | pop =>
    simp only [exec, execPop, issueR_eq] at h
    split at h
    · cases h
    · next hne =>
      split at h
      · cases h
      · next hread => exact ⟨Bool.eq_false_iff.mpr hne, hread⟩
  | push | pushBlocking =>
    simp only [exec, execPush, execPushBlocking] at h
    have hk := issueW_fault h
    split at hk <;> cases hk
  | d2t | sleepUntil =>
    simp only [exec, execD2t, execSleepUntil] at h
    have hk := issueT_fault h
    split at hk <;> cases hk
  | wNop | wFull | wSize | wEmpty | wOvf | wReserved111 =>
    simp only [exec, execWNop, execWFull, execWSize, execWEmpty, execWOvf, execWReserved111] at h
    cases issueW_fault h
  | tNop | now | elapsed | t2d | init | tReserved111 =>
    simp only [exec, execTNop, execNow, execElapsed, execT2d, execInit, execTReserved111] at h
    cases issueT_fault h
  | rNop | rReserved010 | rFull | rSize | rEmpty | rReserved110 | rReserved111 | noPort => exact nomatch h

/-- What a requester's turn is: nothing where it presents nothing or its port is busy, a refusal, or the next presented
command. -/
theorem requesterStep_cases (p : Port) (s : State) :
    (requesterStep p s = .next s ∧ (s.presented p = [] ∨ s.ready p = false)) ∨
      (∃ ρ, requesterStep p s = .refused ρ) ∨
      ∃ c rest i, s.presented p = c :: rest ∧ s.ready p = true ∧ decode c = .ok i ∧ i.port? = some p ∧
        requesterStep p s = exec i (s.withPresented p rest) := by
  unfold requesterStep
  split
  · next hnil => exact .inl ⟨rfl, .inl hnil⟩
  next c rest hc =>
    split
    · next hready =>
      split
      · exact .inr (.inl ⟨_, rfl⟩)
      next i hi =>
        split
        · next hp => exact .inr (.inr ⟨c, rest, i, hc, hready, hi, hp, rfl⟩)
        · exact .inr (.inl ⟨_, rfl⟩)
    · next hbusy => exact .inl ⟨rfl, .inr (Bool.eq_false_iff.mpr hbusy)⟩

/-- An item in the consumer's view is an item stored. -/
theorem size_ne_zero_of_not_empty {s : State} (h : s.Inv) (hne : s.emptyR = false) : s.size.toNat ≠ 0 := by
  have hd2 : s.d2 ≠ 0 := fun e => Bool.eq_false_iff.mp hne ((emptyR_iff s).mpr e)
  have hsize := size_eq h.order
  omega

theorem arcSlot_zero (s : State) : s.arcSlot 0 = s.tail.toNat := by simp [State.arcSlot]

/-- Under the invariant the slot a POP reads holds an item: it is the first of the occupied arc (20_memory.md R68). -/
theorem read_tail_isSome {s : State} (h : s.Inv) (hne : s.emptyR = false) :
    (s.mem.read s.tail.toNat).isSome = true :=
  arcSlot_zero s ▸ h.arc 0 (Nat.pos_of_ne_zero (size_ne_zero_of_not_empty h hne))

theorem exec_ne_fault {s : State} (h : s.Inv) (i : Instr) (f : Fault) : exec i s ≠ .fault f := fun hf => by
  obtain ⟨hne, hnone⟩ := exec_fault hf
  have hsome := read_tail_isSome h hne
  simp [hnone] at hsome

theorem requesterStep_ne_fault {s : State} (h : s.Inv) (p : Port) (f : Fault) : requesterStep p s ≠ .fault f := by
  rcases requesterStep_cases p s with ⟨hpass, -⟩ | ⟨ρ, href⟩ | ⟨c, rest, i, -, -, -, -, hexec⟩
  · simp [hpass]
  · simp [href]
  · rw [hexec]
    exact exec_ne_fault (inv_withPresented h p rest) i f

theorem runAct_ne_fault {s : State} (h : s.Inv) (a : Act) (f : Fault) : runAct a s ≠ .fault f := by
  cases a with
  | quiet | present => exact nofun
  | agent g =>
    cases g with
    | wreq => exact requesterStep_ne_fault h .w f
    | rreq => exact requesterStep_ne_fault h .r f
    | treq => exact requesterStep_ne_fault h .t f
    | rst => exact nofun
    | weng | teng | syncH | syncT | tick =>
      simp only [runAct, runAgent]
      split <;> exact nofun

theorem runActs_ne_fault {s : State} (h : s.Inv) (as : List Act) (f : Fault) : runActs as s ≠ .fault f := by
  induction as generalizing s with
  | nil => exact nofun
  | cons a rest ih =>
    unfold runActs
    split
    · next u hu => exact ih (inv_of_runAct h hu)
    · next g hg => exact absurd hg (runAct_ne_fault h a g)
    · exact nofun

theorem step_ne_fault {s : State} (h : s.Inv) (f : Fault) : step s ≠ .fault f := by
  unfold step
  split
  · exact nofun
  · next x rest _ => exact runActs_ne_fault (inv_withSched h rest) _ f

theorem exec_pop_next {s : State} (h : s.Inv) : ∃ t, exec .pop s = .next t := by
  cases hne : s.emptyR with
  | true => exact ⟨_, if_pos hne⟩
  | false =>
    obtain ⟨v, hv⟩ := Option.isSome_iff_exists.mp (read_tail_isSome h hne)
    exact ⟨s.popItem.completeR .pop .ok (some (zext64 v)), by simp [exec, execPop, hne, hv]⟩

/-- Settles O43: only a POP of a slot with no value faults, and under the invariant slot `tail` holds an item. -/
theorem noStepFaultsUnderTheInvariant : Obligations.NoStepFaultsUnderTheInvariant := fun _ h =>
  ⟨step_ne_fault h, exec_pop_next h⟩

/-! ### Arcs of slots -/

/-- The slots from `x` up to but not including `y` are none of them `y`. -/
theorem toNat_add_ne_of_lt_distance {n : Nat} {x y : BitVec n} {k : Nat} (hk : k < (y - x).toNat) :
    (x + BitVec.ofNat n k).toNat ≠ y.toNat := by
  have hx := x.isLt
  have hy := y.isLt
  rw [toNat_add_index x k (by have := (y - x).isLt; omega)]
  rw [toNat_distance] at hk
  split_ifs at * <;> omega

/-- Moving the far end of an arc on by one adds a slot, short of a whole lap. -/
theorem toNat_succ_sub {n : Nat} {x y : BitVec n} (h : (x - y).toNat + 1 < 2 ^ n) :
    (x + 1 - y).toNat = (x - y).toNat + 1 := by
  rw [← BitVec.sub_add_comm, toNat_succ_index, if_neg (by omega)]

/-- Moving the near end of an arc on by one takes its first slot off. -/
theorem toNat_sub_succ {n : Nat} {x y : BitVec n} (h : (x - y).toNat ≠ 0) :
    (x - (y + 1)).toNat + 1 = (x - y).toNat := by
  have hx := x.isLt
  have hy := y.isLt
  simp only [toNat_distance, toNat_succ_index] at *
  split_ifs at * <;> omega

theorem arcSlot_ne_head {s : State} {k : Nat} (hk : k < s.size.toNat) : s.arcSlot k ≠ s.head.toNat :=
  toNat_add_ne_of_lt_distance hk

theorem unseenSlot_ne_head {s : State} (h : s.Inv) {k : Nat} (hk : k < s.d1) : s.unseenSlot k ≠ s.head.toNat :=
  have hsizeW := sizeW_eq h.order
  toNat_add_ne_of_lt_distance (show k < s.sizeW.toNat by omega)

/-- Where a push succeeds, the arc from `tail_w` to `head` is short of N−1 slots (20_memory.md R69). -/
theorem distances_lt_of_not_full {s : State} (h : s.Inv) (hf : s.fullW = false) :
    s.d1 + s.d2 + s.d3 < s.cfg.N - 1 := by
  have hne : s.sizeW.toNat ≠ s.cfg.N - 1 := fun e => Bool.eq_false_iff.mp hf ((fullW_iff s).mpr e)
  have hsizeW := sizeW_eq h.order
  have horder := h.order
  omega

/-! ### What a push leaves in the slots -/

/-- A completed push, at once or by WENG, stores its item at `head` and writes no other slot. -/
theorem pushesBesideSlotsInUse_pushItem {s : State} (h : s.Inv) (v : BitVec s.cfg.W) (busy : Bool) (m : Mnemonic) :
    s.pushesBesideSlotsInUse (.next ({ s.pushItem v with wBusy := busy }.completeW m .ok none)) := by
  have hread (i : Nat) (hi : i ≠ s.head.toNat) :
      ((s.mem.write s.head.toNat v).read i).map zext64 = (s.mem.read i).map zext64 := by
    rw [read_write, if_neg hi]
  refine ⟨_, rfl, Registers.toNat_succ_mod s.head, ?_, fun k hk => ?_, fun k hk => ?_⟩
  · show ((s.mem.write s.head.toNat v).read s.head.toNat).isSome = true
    simp [read_write]
  · exact hread _ (arcSlot_ne_head hk)
  · exact hread _ (unseenSlot_ne_head h hk)

theorem exec_push_of_not_full {s : State} (hb : s.wBusy = false) (hf : s.fullW = false) (d : Word64) :
    exec (.push d) s = .next ((s.pushItem (itemOperand s.cfg d)).completeW .push .ok none) := by
  simp [exec, execPush, hb, hf]

theorem exec_pushBlocking_of_not_full {s : State} (hb : s.wBusy = false) (hf : s.fullW = false) (d : Word64) :
    exec (.pushBlocking d) s = .next ((s.pushItem (itemOperand s.cfg d)).completeW .pushBlocking .ok none) := by
  simp [exec, execPushBlocking, hb, hf]

theorem runAgent_weng_of_not_full {s : State} (hb : s.wBusy = true) (hf : s.fullW = false) :
    runAgent .weng s = .next s.wengComplete :=
  if_pos (wengEnabled_iff.mpr ⟨hb, fullW_eq_false.mp hf⟩)

/-- Settles O46: the slot a push writes, `head`, ends both arcs and is in neither. -/
theorem aPushOverwritesNoSlotInUse : Obligations.APushOverwritesNoSlotInUse := by
  intro s h hfree
  have hf : s.fullW = false := fullW_eq_false.mpr hfree
  refine ⟨distances_lt_of_not_full h hf, fun k hk => arcSlot_ne_head hk, fun k hk => unseenSlot_ne_head h hk,
    fun hb d => ⟨?_, ?_⟩, fun hb => ?_⟩
  · rw [exec_push_of_not_full hb hf]
    exact pushesBesideSlotsInUse_pushItem h _ s.wBusy .push
  · rw [exec_pushBlocking_of_not_full hb hf]
    exact pushesBesideSlotsInUse_pushItem h _ s.wBusy .pushBlocking
  · rw [runAgent_weng_of_not_full hb hf]
    exact pushesBesideSlotsInUse_pushItem h s.wPdata false .pushBlocking

/-! ### The queue under a push and a pop -/

theorem queue_pushItem {s : State} (hsize : s.size.toNat + 1 < s.cfg.N) (v : BitVec s.cfg.W) :
    (s.pushItem v).queue = s.queue ++ [some (zext64 v)] := by
  have hgrow : (s.pushItem v).size.toNat = s.size.toNat + 1 := toNat_succ_sub hsize
  have hread (k : Nat) : (s.pushItem v).mem.read ((s.pushItem v).arcSlot k) =
      if s.arcSlot k = s.head.toNat then some v else s.mem.read (s.arcSlot k) := read_write s.mem _ _ v
  have hold : ∀ k ∈ List.range s.size.toNat,
      ((s.pushItem v).mem.read ((s.pushItem v).arcSlot k)).map zext64 = (s.mem.read (s.arcSlot k)).map zext64 :=
    fun k hk => by rw [hread, if_neg (arcSlot_ne_head (List.mem_range.mp hk))]; rfl
  have hnew : (s.pushItem v).mem.read ((s.pushItem v).arcSlot s.size.toNat) = some v := by
    rw [hread, if_pos (arcSlot_size s)]
  unfold State.queue
  rw [hgrow, List.range_succ, List.map_append, List.map_congr_left hold]
  simp only [List.map_cons, List.map_nil, hnew]
  rfl

theorem arcSlot_popItem (s : State) (k : Nat) : s.popItem.arcSlot k = s.arcSlot (k + 1) := by
  show (s.tail + 1 + BitVec.ofNat s.cfg.A k).toNat = (s.tail + BitVec.ofNat s.cfg.A (k + 1)).toNat
  rw [BitVec.ofNat_add, BitVec.add_assoc, BitVec.add_comm 1]
  rfl

theorem queue_eq_cons_popItem {s : State} (hsize : s.size.toNat ≠ 0) :
    s.queue = (s.mem.read s.tail.toNat).map zext64 :: s.popItem.queue := by
  have hshrink : s.size.toNat = s.popItem.size.toNat + 1 := (toNat_sub_succ hsize).symm
  have hrest (k : Nat) : (s.popItem.mem.read (s.popItem.arcSlot k)).map zext64 =
      (s.mem.read (s.arcSlot (k + 1))).map zext64 := by rw [arcSlot_popItem]; rfl
  unfold State.queue
  rw [hshrink, List.range_succ_eq_map, List.map_cons, arcSlot_zero, List.map_map]
  exact congrArg _ (List.map_congr_left fun k _ => (hrest k).symm)

/-! ### FIFO order -/

/-- Between two states the history grew, and what was stored followed by the accepted items is what the POPs of the new
history returned followed by what is stored (20_memory.md R70). -/
def KeepsOrder (s : State) (accepted : List Word64) (t : State) : Prop :=
  ∃ new : List Event, t.history = s.history ++ new ∧
    s.queue ++ accepted.map some = popResults new ++ t.queue

theorem popResults_append (h h' : List Event) : popResults (h ++ h') = popResults h ++ popResults h' :=
  List.filterMap_append

namespace KeepsOrder

theorem refl (s : State) : KeepsOrder s [] s := ⟨[], by simp, by simp [popResults]⟩

theorem trans {s u t : State} {xs ys : List Word64} (hsu : KeepsOrder s xs u) (hut : KeepsOrder u ys t) :
    KeepsOrder s (xs ++ ys) t := by
  obtain ⟨new, hnew, hq⟩ := hsu
  obtain ⟨new', hnew', hq'⟩ := hut
  refine ⟨new ++ new', by rw [hnew', hnew, List.append_assoc], ?_⟩
  calc s.queue ++ (xs ++ ys).map some
      = (s.queue ++ xs.map some) ++ ys.map some := by simp
    _ = popResults new ++ (u.queue ++ ys.map some) := by rw [hq, List.append_assoc]
    _ = popResults (new ++ new') ++ t.queue := by rw [hq', ← List.append_assoc, popResults_append]

/-- A completion that is no successful POP leaves the queue to grow by what was accepted. -/
theorem of_completed {s t : State} {accepted : List Word64} {p : Port} {m : Mnemonic} {st : Status}
    {rd : Option Word64} (hh : t.history = s.recorded p m st rd) (hpop : st = .ok → m ≠ .pop)
    (hq : t.queue = s.queue ++ accepted.map some) : KeepsOrder s accepted t := by
  refine ⟨_, hh, ?_⟩
  have hnot : Completion.isPop ⟨p, m, st, rd⟩ = false := by simpa [Completion.isPop] using hpop
  simp [popResults, hnot, hq]

end KeepsOrder

/-- The items a command accepts: that of a push issued while the port is ready and the FIFO not full. -/
def itemsAccepted (s : State) : Instr → List Word64
  | .push d | .pushBlocking d => if s.wBusy || s.fullW then [] else [zext64 (itemOperand s.cfg d)]
  | _ => []

theorem itemsAccepted_of_port {s : State} {i : Instr} {p : Port} (hp : i.port? = some p) (hne : p ≠ .w) :
    itemsAccepted s i = [] := by
  cases i with
  | push | pushBlocking => exact absurd (Option.some.inj hp).symm hne
  | _ => rfl

theorem itemsAccepted_of_busy {s : State} (hb : s.wBusy = true) (i : Instr) : itemsAccepted s i = [] := by
  cases i with
  | push | pushBlocking => simp [itemsAccepted, hb]
  | _ => rfl

theorem itemsAccepted_of_mnemonic {s : State} {i : Instr} {m : Mnemonic} (hm : i.mnemonic? = some m)
    (hn : m ≠ .push) (hn' : m ≠ .pushBlocking) : itemsAccepted s i = [] := by
  cases i with
  | push => exact absurd (Option.some.inj hm).symm hn
  | pushBlocking => exact absurd (Option.some.inj hm).symm hn'
  | _ => rfl

/-- What WREQ's turn accepts is what the command it issues accepts. -/
theorem accepts_wreq {s : State} {c : Cmd} {rest : List Cmd} {i : Instr} (hc : s.wCmds = c :: rest)
    (hd : decode c = .ok i) : s.accepts (.agent .wreq) = itemsAccepted (s.withPresented .w rest) i := by
  have hsame : itemsAccepted (s.withPresented .w rest) i = itemsAccepted s i := by cases i <;> rfl
  rw [hsame]
  cases i <;> simp [State.accepts, itemsAccepted, hc, hd]

/-- A successful push accepts its item. -/
theorem keepsOrder_push {s : State} (h : s.Inv) (hf : s.fullW = false) (v : BitVec s.cfg.W) (busy : Bool) {m : Mnemonic}
    (hm : m ≠ .pop) : KeepsOrder s [zext64 v] ({ s.pushItem v with wBusy := busy }.completeW m .ok none) := by
  have hsize : s.size.toNat + 1 < s.cfg.N := by
    have hlt := distances_lt_of_not_full h hf
    have hsum := size_eq h.order
    omega
  exact .of_completed rfl (fun _ => hm) (queue_pushItem hsize v)

/-- A successful POP returns the item at the front of the queue. -/
theorem keepsOrder_pop {s : State} (h : s.Inv) (hne : s.emptyR = false) {v : BitVec s.cfg.W}
    (hv : s.mem.read s.tail.toNat = some v) : KeepsOrder s [] (s.popItem.completeR .pop .ok (some (zext64 v))) := by
  have hq : s.queue = some (zext64 v) :: s.popItem.queue := by
    rw [queue_eq_cons_popItem (size_ne_zero_of_not_empty h hne), hv]
    rfl
  refine ⟨[.completed ⟨.r, .pop, .ok, some (zext64 v)⟩], rfl, ?_⟩
  rw [List.map_nil, List.append_nil, hq]
  rfl

theorem keepsOrder_of_execEffect {s t : State} {i : Instr} (h : s.Inv) (he : ExecEffect s i t) :
    KeepsOrder s (itemsAccepted s i) t := by
  cases he with
  | turnedAwayW hp hb =>
    rw [itemsAccepted_of_busy hb]
    exact .refl s
  | turnedAwayT hp hb =>
    rw [itemsAccepted_of_port hp (by decide)]
    exact .refl s
  | doneW m st rd _ hm hn hn' hn'' | doneR m st rd _ hm hn hn' hn'' | doneT m st rd _ hm hn hn' hn'' =>
    rw [itemsAccepted_of_mnemonic hm hn hn']
    exact .of_completed rfl (fun _ => hn'') (List.append_nil _).symm
  | dropped d hf =>
    have hnone : itemsAccepted s (.push d) = [] := by simp [itemsAccepted, hf]
    rw [hnone]
    exact .of_completed rfl nofun (List.append_nil _).symm
  | waitsW d hf =>
    have hnone : itemsAccepted s (.pushBlocking d) = [] := by simp [itemsAccepted, hf]
    rw [hnone]
    exact .refl s
  | pushed d hf hr =>
    have hone : itemsAccepted s (.push d) = [zext64 (itemOperand s.cfg d)] := by simp [itemsAccepted, hf, hr]
    rw [hone]
    exact keepsOrder_push h hf _ s.wBusy (by decide)
  | pushedAtOnce d hf hr =>
    have hone : itemsAccepted s (.pushBlocking d) = [zext64 (itemOperand s.cfg d)] := by simp [itemsAccepted, hf, hr]
    rw [hone]
    exact keepsOrder_push h hf _ s.wBusy (by decide)
  | popEmpty => exact .of_completed rfl nofun (List.append_nil _).symm
  | popped v hne hv => exact keepsOrder_pop h hne hv
  | cleared => exact .of_completed rfl (by decide) (List.append_nil _).symm
  | waitsT => exact .refl s

/-- The command a requester issues finds the queue and the history as they were. -/
theorem keepsOrder_of_issued {s t : State} {p : Port} {rest : List Cmd} {i : Instr} (h : s.Inv)
    (he : ExecEffect (s.withPresented p rest) i t) : KeepsOrder s (itemsAccepted (s.withPresented p rest) i) t := by
  have hkeep := keepsOrder_of_execEffect (inv_withPresented h p rest) he
  cases p <;> exact hkeep

theorem accepts_wreq_of_idle {s : State} (h : s.presented .w = [] ∨ s.ready .w = false) :
    s.accepts (.agent .wreq) = [] := by
  rcases h with hnil | hbusy
  · have hcmds : s.wCmds = [] := hnil
    simp [State.accepts, hcmds]
  · have hb : s.wBusy = true := by simpa [State.ready, State.wReady] using hbusy
    unfold State.accepts
    cases s.wCmds <;> simp [hb]

theorem keepsOrder_wreq {s t : State} (h : s.Inv) (hrun : requesterStep .w s = .next t) :
    KeepsOrder s (s.accepts (.agent .wreq)) t := by
  rcases requesterStep_cases .w s with ⟨hpass, hidle⟩ | ⟨ρ, href⟩ | ⟨c, rest, i, hc, -, hd, -, hexec⟩
  · obtain rfl : s = t := Host.Outcome.next.inj (hpass.symm.trans hrun)
    rw [accepts_wreq_of_idle hidle]
    exact .refl s
  · cases href.symm.trans hrun
  · rw [accepts_wreq hc hd]
    exact keepsOrder_of_issued h (exec_effect (hexec.symm.trans hrun))

theorem keepsOrder_weng {s t : State} (h : s.Inv) (hrun : runAgent .weng s = .next t) :
    KeepsOrder s (s.accepts (.agent .weng)) t := by
  simp only [runAgent, State.accepts] at hrun ⊢
  split at hrun <;> obtain rfl := Host.Outcome.next.inj hrun
  · next hw =>
    obtain ⟨-, hfree⟩ := wengEnabled_iff.mp hw
    rw [if_pos hw]
    exact keepsOrder_push h (fullW_eq_false.mpr hfree) s.wPdata false (by decide)
  · next hw =>
    rw [if_neg hw]
    exact .refl s

/-- A requester of the R or T port accepts nothing. -/
theorem keepsOrder_requester {s t : State} {p : Port} (h : s.Inv) (hne : p ≠ .w)
    (hrun : requesterStep p s = .next t) : KeepsOrder s [] t := by
  rcases requesterStep_next hrun with rfl | ⟨c, rest, i, -, -, -, hp, he⟩
  · exact .refl _
  · exact itemsAccepted_of_port hp hne ▸ keepsOrder_of_issued h he

theorem keepsOrder_of_runAgent {s t : State} {g : Agent} (h : s.Inv) (hr : g ≠ .rst) (hrun : runAgent g s = .next t) :
    KeepsOrder s (s.accepts (.agent g)) t := by
  cases g with
  | wreq => exact keepsOrder_wreq h hrun
  | weng => exact keepsOrder_weng h hrun
  | rreq => exact keepsOrder_requester (p := .r) h (by decide) hrun
  | treq => exact keepsOrder_requester (p := .t) h (by decide) hrun
  | rst => exact absurd rfl hr
  | teng =>
    cases runAgent_effect hrun with
    | nothing => exact .refl s
    | issues p _ _ _ _ ha => cases p <;> cases ha
    | tengCompletes => exact .of_completed rfl (by decide) (List.append_nil _).symm
  | syncH | syncT | tick =>
    simp only [runAgent] at hrun
    split at hrun <;> obtain rfl := Host.Outcome.next.inj hrun <;> exact .refl s

theorem keepsOrder_of_runAct {s t : State} {a : Act} (h : s.Inv) (hr : a ≠ .agent .rst)
    (hrun : runAct a s = .next t) : KeepsOrder s (s.accepts a) t := by
  cases a with
  | agent g => exact keepsOrder_of_runAgent h (fun e => hr (congrArg _ e)) hrun
  | quiet p =>
    obtain rfl := Host.Outcome.next.inj hrun
    cases p <;> exact .refl s
  | present p cs =>
    obtain rfl := Host.Outcome.next.inj hrun
    cases p <;> exact .refl s

/-- Settles O47, by induction on the acts: each one keeps the invariant and the order. -/
theorem fifoOrderAcrossAnyInterleaving : Obligations.FifoOrderAcrossAnyInterleaving := by
  intro acts
  induction acts with
  | nil =>
    intro s t _ _ hrun
    obtain rfl := Host.Outcome.next.inj hrun
    exact KeepsOrder.refl s
  | cons a rest ih =>
    intro s t h hr hrun
    obtain ⟨u, hu, ht⟩ := runActs_cons_next hrun
    obtain ⟨ha, hrest⟩ := List.ne_and_not_mem_of_not_mem_cons hr
    have hlater : KeepsOrder u (acceptedDuring rest u) t := ih u t (inv_of_runAct h hu) hrest ht
    have haccepted : acceptedDuring (a :: rest) s = s.accepts a ++ acceptedDuring rest u := by
      simp only [acceptedDuring, hu]
    rw [haccepted]
    exact (keepsOrder_of_runAct h ha.symm hu).trans hlater

end Sys2Proof.Proofs.Fifo
end

section
/-! PROOFS. 30_encoding.md: the command word and its decoder (R96, R98, R99, R100), what a requester's turn does with
the command it presents (R93, R99), the directive `.sync` (R102), and the status codes (R97). -/

namespace Sys2Proof.Proofs.Encoding

open Sys2Proof Sys2Proof.Machine

/-! ### The fields of a command word -/

@[simp] theorem portField_cmdWord : ∀ (port : BitVec 2) (op : BitVec 3), portField (cmdWord port op) = port := by decide

@[simp] theorem opField_cmdWord : ∀ (port : BitVec 2) (op : BitVec 3), opField (cmdWord port op) = op := by decide

/-- A command word is its two fields (30_encoding.md R96). -/
theorem cmdWord_fields : ∀ w : CmdWord, cmdWord (portField w) (opField w) = w := by decide

/-- The port field as a number: the bits above the three of the operation field. -/
theorem portField_toNat (w : CmdWord) : (portField w).toNat = w.toNat / 8 := by
  have hw := w.isLt
  rw [portField, BitVec.extractLsb'_toNat, Nat.shiftRight_eq_div_pow]
  omega

theorem op_cases : ∀ op : BitVec 3, op = 0 ∨ op = 1 ∨ op = 2 ∨ op = 3 ∨ op = 4 ∨ op = 5 ∨ op = 6 ∨ op = 7 := by decide

/-! ### The rows of each port -/

theorem encodeWord_decodeW (op : BitVec 3) (d : Word64) : encodeWord (decodeW op d) = cmdWord 0b00#2 op := by
  rcases op_cases op with rfl | rfl | rfl | rfl | rfl | rfl | rfl | rfl <;> rfl

theorem encodeWord_decodeR (op : BitVec 3) : encodeWord (decodeR op) = cmdWord 0b01#2 op := by
  rcases op_cases op with rfl | rfl | rfl | rfl | rfl | rfl | rfl | rfl <;> rfl

theorem encodeWord_decodeT (op : BitVec 3) (a b : Word64) : encodeWord (decodeT op a b) = cmdWord 0b10#2 op := by
  rcases op_cases op with rfl | rfl | rfl | rfl | rfl | rfl | rfl | rfl <;> rfl

theorem port?_decodeW (op : BitVec 3) (d : Word64) : (decodeW op d).port? = some .w := by
  unfold decodeW
  split <;> rfl

theorem port?_decodeR (op : BitVec 3) : (decodeR op).port? = some .r := by
  unfold decodeR
  split <;> rfl

theorem port?_decodeT (op : BitVec 3) (a b : Word64) : (decodeT op a b).port? = some .t := by
  unfold decodeT
  split <;> rfl

/-! ### The decoder, by port field -/

theorem decode_wWord (op : BitVec 3) (d a b : Word64) : decode ⟨cmdWord 0b00#2 op, d, a, b⟩ = .ok (decodeW op d) := by
  simp [decode]

theorem decode_rWord (op : BitVec 3) (d a b : Word64) : decode ⟨cmdWord 0b01#2 op, d, a, b⟩ = .ok (decodeR op) := by
  simp [decode]

theorem decode_tWord (op : BitVec 3) (d a b : Word64) : decode ⟨cmdWord 0b10#2 op, d, a, b⟩ = .ok (decodeT op a b) := by
  simp [decode]

theorem decode_noPortWord (op : BitVec 3) (d a b : Word64) : decode ⟨cmdWord 0b11#2 op, d, a, b⟩ = .error .noPort := by
  simp [decode]

/-- Everything the decoder can answer: the row of its port, or a rejection where the port field names none. -/
theorem decode_cases (c : Cmd) :
    (portField c.word = 0b00#2 ∧ decode c = .ok (decodeW (opField c.word) c.wData)) ∨
      (portField c.word = 0b01#2 ∧ decode c = .ok (decodeR (opField c.word))) ∨
      (portField c.word = 0b10#2 ∧ decode c = .ok (decodeT (opField c.word) c.tA c.tB)) ∨
      (portField c.word = 0b11#2 ∧ decode c = .error .noPort) := by
  have hport : ∀ p : BitVec 2, p = 0b00#2 ∨ p = 0b01#2 ∨ p = 0b10#2 ∨ p = 0b11#2 := by decide
  rcases hport (portField c.word) with h | h | h | h <;> simp [decode, h]

/-- 30_encoding.md R99 item 2, as a number. -/
theorem decode_eq_error_iff (c : Cmd) : decode c = .error .noPort ↔ c.word.toNat / 8 = 3 := by
  rw [← portField_toNat]
  rcases decode_cases c with ⟨h, hd⟩ | ⟨h, hd⟩ | ⟨h, hd⟩ | ⟨h, hd⟩ <;> simp [h, hd]

theorem port?_ne_none_of_decode {c : Cmd} {i : Instr} (h : decode c = .ok i) : i.port? ≠ none := by
  rcases decode_cases c with ⟨-, hd⟩ | ⟨-, hd⟩ | ⟨-, hd⟩ | ⟨-, hd⟩ <;> cases hd.symm.trans h
  · simp [port?_decodeW]
  · simp [port?_decodeR]
  · simp [port?_decodeT]

/-- The encoder gives a decoded command the word it was read from. -/
theorem encodeWord_of_decode {c : Cmd} {i : Instr} (h : decode c = .ok i) : encodeWord i = c.word := by
  rcases decode_cases c with ⟨hp, hd⟩ | ⟨hp, hd⟩ | ⟨hp, hd⟩ | ⟨-, hd⟩ <;> cases hd.symm.trans h
  · rw [encodeWord_decodeW, ← hp, cmdWord_fields]
  · rw [encodeWord_decodeR, ← hp, cmdWord_fields]
  · rw [encodeWord_decodeT, ← hp, cmdWord_fields]

/-- The encoder lays every operand on the bus the decoder reads it from (30_encoding.md R100), row by row of the opcode
map; a command that names no port is the one it cannot encode. -/
theorem decode_encode {i : Instr} (h : i.port? ≠ none) : decode (encode i) = .ok i := by
  cases i with
  | push item => exact decode_wWord 1 item 0 0
  | pushBlocking item => exact decode_wWord 2 item 0 0
  | elapsed start now => exact decode_tWord 2 0 start now
  | t2d ticks period => exact decode_tWord 3 0 ticks period
  | d2t duration period => exact decode_tWord 4 0 duration period
  | sleepUntil target => exact decode_tWord 5 0 target 0
  | noPort op => exact absurd rfl h
  | _ => rfl

theorem port?_ne_none_of_wellFormed {c : Config} {i : Instr} (h : wellFormed c i = true) : i.port? ≠ none := by
  cases i with
  | noPort op => cases h
  | _ => exact nofun

/-- Settles O5: a command is decoded from its own encoding exactly where it names a port, as well-formed and decoded
commands do, and a decoded command's word is the one it was read from. -/
theorem decodeAndEncodeAgree : Obligations.DecodeAndEncodeAgree :=
  ⟨fun _ _ hwf => decode_encode (port?_ne_none_of_wellFormed hwf),
    fun _ _ hd => ⟨encodeWord_of_decode hd, decode_encode (port?_ne_none_of_decode hd)⟩,
    decode_eq_error_iff,
    fun _ _ _ hd hd' => (encodeWord_of_decode hd).symm.trans (encodeWord_of_decode hd')⟩

/-- Settles O4: each word is a port field and an operation field, so it is a row of its port. -/
theorem decodedWordsOfEachPort : Obligations.DecodedWordsOfEachPort := by
  intro d a b
  have w (op : BitVec 3) := decode_wWord op d a b
  have r (op : BitVec 3) := decode_rWord op d a b
  have t (op : BitVec 3) := decode_tWord op d a b
  exact ⟨w 0, w 1, w 2, w 3, w 4, w 5, w 6, w 7, r 0, r 1, r 2, r 3, r 4, r 5, r 6, r 7, t 0, t 1, t 2, t 3, t 4, t 5,
    t 6, t 7, decode_noPortWord 0 d a b⟩

/-! ### A requester's turn -/

@[simp] theorem runActs_singleton (a : Act) (s : State) : runActs [a] s = runAct a s := by
  unfold runActs
  split
  · next u hu => exact hu.symm
  · next f hf => exact hf.symm
  · next ρ hρ => exact hρ.symm

/-- A slot of one agent is that agent's step, on the state whose schedule has moved on. -/
theorem step_agent {s : State} {g : Agent} {xs : List Slot} (hs : s.sched = .agent g :: xs) :
    step s = runAgent g { s with sched := xs } := by
  unfold step
  rw [hs]
  exact runActs_singleton (.agent g) _

@[simp] theorem presented_withSched (s : State) (xs : List Slot) (p : Port) :
    { s with sched := xs }.presented p = s.presented p := by
  cases p <;> rfl

@[simp] theorem ready_withSched (s : State) (xs : List Slot) (p : Port) :
    { s with sched := xs }.ready p = s.ready p := by
  cases p <;> rfl

section turn

variable {s : State} {p : Port} {xs : List Slot} {c : Cmd} {cs : List Cmd}

theorem step_requester (hs : s.sched = .agent (Registers.requester p) :: xs) :
    step s = requesterStep p { s with sched := xs } := by
  rw [step_agent hs]
  cases p <;> rfl

/-- At a port that is not ready the turn passes, and the command stays presented (30_encoding.md R93). -/
theorem step_passes (hs : s.sched = .agent (Registers.requester p) :: xs) (hr : s.ready p = false) :
    step s = .next { s with sched := xs } := by
  rw [step_requester hs]
  exact Scope.requesterStep_of_not_enabled (by simp [hr])

/-- At a ready port a command of that port runs (30_encoding.md R93). -/
theorem step_issues {i : Instr} (hs : s.sched = .agent (Registers.requester p) :: xs) (hc : s.presented p = c :: cs)
    (hr : s.ready p = true) (hd : decode c = .ok i) (hp : i.port? = some p) :
    step s = exec i ({ s with sched := xs }.withPresented p cs) := by
  simp [step_requester hs, requesterStep, hc, hr, hd, hp]

/-- At a ready port a word that names no port is refused (30_encoding.md R99 item 2). -/
theorem step_refuses_noPort (hs : s.sched = .agent (Registers.requester p) :: xs) (hc : s.presented p = c :: cs)
    (hr : s.ready p = true) (hd : decode c = .error .noPort) : step s = .refused .noPort := by
  simp [step_requester hs, requesterStep, hc, hr, hd]

end turn

@[simp] theorem ready_w (s : State) : s.ready .w = !s.wBusy := rfl

@[simp] theorem ready_r (s : State) : s.ready .r = true := rfl

@[simp] theorem ready_t (s : State) : s.ready .t = !s.tBusy := rfl

/-- Settles O6: the decoder rejects the word, so a requester's turn at a ready port refuses it. -/
theorem noPortWordsAreRefused : Obligations.NoPortWordsAreRefused := by
  refine ⟨fun _ _ => rfl, decode_noPortWord, fun s c cs xs hword => ?_⟩
  have hd : decode c = .error .noPort := (decode_eq_error_iff c).mpr hword
  exact ⟨fun hs hc hb => step_refuses_noPort (p := .w) hs hc (by simp [hb]) hd,
    fun hs hc => step_refuses_noPort (p := .r) hs hc (ready_r s) hd,
    fun hs hc hb => step_refuses_noPort (p := .t) hs hc (by simp [hb]) hd⟩

/-- Settles O34: the presented command is decoded and runs. -/
theorem aStepRunsTheDecodedInstruction : Obligations.AStepRunsTheDecodedInstruction := fun s _ _ _ _ hd =>
  ⟨fun hs hc hb hp => step_issues (p := .w) hs hc (by simp [hb]) hd hp,
    fun hs hc hp => step_issues (p := .r) hs hc (ready_r s) hd hp,
    fun hs hc hb hp => step_issues (p := .t) hs hc (by simp [hb]) hd hp⟩

/-! ### A busy port -/

/-- Every W command stands behind the gate of its port (30_encoding.md R93). -/
theorem exec_of_wBusy {i : Instr} {s : State} (hp : i.port? = some .w) (hb : s.wBusy = true) : exec i s = .next s := by
  cases i with
  | wNop | push | pushBlocking | wFull | wSize | wEmpty | wOvf | wReserved111 =>
    simp only [exec, execWNop, execPush, execPushBlocking, execWFull, execWSize, execWEmpty, execWOvf, execWReserved111,
      issueW_busy hb]
  | _ => cases hp

/-- Every T command stands behind the gate of its port (30_encoding.md R93). -/
theorem exec_of_tBusy {i : Instr} {s : State} (hp : i.port? = some .t) (hb : s.tBusy = true) : exec i s = .next s := by
  cases i with
  | tNop | now | elapsed | t2d | d2t | sleepUntil | init | tReserved111 =>
    simp only [exec, execTNop, execNow, execElapsed, execT2d, execD2t, execSleepUntil, execInit, execTReserved111,
      issueT_busy hb]
  | _ => cases hp

/-- Settles O12: every command of a busy port is turned away at its gate, and its requester's turn passes. -/
theorem aBusyPortIssuesNothing : Obligations.ABusyPortIssuesNothing :=
  ⟨fun _ _ => exec_of_wBusy, fun _ _ => exec_of_tBusy,
    fun _ _ hs hb => step_passes (p := .w) hs (by simp [hb]),
    fun _ _ hs hb => step_passes (p := .t) hs (by simp [hb])⟩

/-! ### The directive `.sync` -/

theorem runActs_append {as bs : List Act} {s u : State} (h : runActs as s = .next u) :
    runActs (as ++ bs) s = runActs bs u := by
  induction as generalizing s with
  | nil =>
    obtain rfl := Host.Outcome.next.inj h
    rfl
  | cons a rest ih =>
    obtain ⟨v, hv, hrest⟩ := runActs_cons_next h
    simp only [List.cons_append, runActs, hv]
    exact ih hrest

/-- An act that moves along a sequence of states, taken `n` times from its start, ends at its `n`-th state. -/
theorem runActs_replicate {a : Act} (f : Nat → State) (n : Nat) (h : ∀ k < n, runAct a (f k) = .next (f (k + 1))) :
    runActs (List.replicate n a) (f 0) = .next (f n) := by
  induction n with
  | zero => rfl
  | succ n ih =>
    rw [List.replicate_succ', runActs_append (ih fun k hk => h k (Nat.lt_succ_of_lt hk)), runActs_singleton,
      h n (Nat.lt_succ_self n)]

theorem add_ofNat_distance {n : Nat} (x y : BitVec n) : x + BitVec.ofNat n (y - x).toNat = y := by
  rw [BitVec.ofNat_toNat, BitVec.setWidth_eq, BitVec.add_comm, BitVec.sub_add_cancel]

theorem add_ofNat_succ {n : Nat} (x : BitVec n) (k : Nat) : x + BitVec.ofNat n (k + 1) = x + BitVec.ofNat n k + 1 := by
  rw [BitVec.ofNat_add, BitVec.add_assoc]
  rfl

/-- Short of its distance from the index it follows, a view has not caught up with it. -/
theorem add_ofNat_ne {n : Nat} {x y : BitVec n} {k : Nat} (hk : k < (y - x).toNat) : x + BitVec.ofNat n k ≠ y :=
  fun e => Fifo.toNat_add_ne_of_lt_distance hk (congrArg BitVec.toNat e)

/-- The state whose view `head_r` has moved on by `k`. -/
def headRMoved (s : State) (k : Nat) : State := { s with headR := s.headR + BitVec.ofNat s.cfg.A k }

@[simp] theorem headRMoved_zero (s : State) : headRMoved s 0 = s := by simp [headRMoved]

theorem headRMoved_distance (s : State) : headRMoved s (s.head - s.headR).toNat = { s with headR := s.head } := by
  rw [headRMoved, add_ofNat_distance]

theorem runAct_syncH_headRMoved {s : State} {k : Nat} (hk : k < (s.head - s.headR).toNat) :
    runAct (.agent .syncH) (headRMoved s k) = .next (headRMoved s (k + 1)) := by
  rw [headRMoved, headRMoved, add_ofNat_succ]
  exact if_neg (add_ofNat_ne hk)

/-- As many turns of SYNC_H as `head_r` is behind make it current (20_memory.md R65). -/
theorem runActs_syncH_catchesUp (s : State) :
    runActs (List.replicate (s.head - s.headR).toNat (.agent .syncH)) s = .next { s with headR := s.head } := by
  have hrun := runActs_replicate (headRMoved s) (s.head - s.headR).toNat fun _ => runAct_syncH_headRMoved
  rwa [headRMoved_zero, headRMoved_distance] at hrun

/-- The state whose view `tail_w` has moved on by `k`. -/
def tailWMoved (s : State) (k : Nat) : State := { s with tailW := s.tailW + BitVec.ofNat s.cfg.A k }

@[simp] theorem tailWMoved_zero (s : State) : tailWMoved s 0 = s := by simp [tailWMoved]

theorem tailWMoved_distance (s : State) : tailWMoved s (s.tail - s.tailW).toNat = { s with tailW := s.tail } := by
  rw [tailWMoved, add_ofNat_distance]

theorem runAct_syncT_tailWMoved {s : State} {k : Nat} (hk : k < (s.tail - s.tailW).toNat) :
    runAct (.agent .syncT) (tailWMoved s k) = .next (tailWMoved s (k + 1)) := by
  rw [tailWMoved, tailWMoved, add_ofNat_succ]
  exact if_neg (add_ofNat_ne hk)

/-- As many turns of SYNC_T as `tail_w` is behind make it current (20_memory.md R65). -/
theorem runActs_syncT_catchesUp (s : State) :
    runActs (List.replicate (s.tail - s.tailW).toNat (.agent .syncT)) s = .next { s with tailW := s.tail } := by
  have hrun := runActs_replicate (tailWMoved s) (s.tail - s.tailW).toNat fun _ => runAct_syncT_tailWMoved
  rwa [tailWMoved_zero, tailWMoved_distance] at hrun

/-- Settles O38: SYNC_H's turns make `head_r` current and change neither `tail` nor `tail_w`, so SYNC_T's then make
`tail_w` current. -/
theorem syncBringsBothViewsUpToDate : Obligations.SyncBringsBothViewsUpToDate := fun s =>
  calc runSlot .sync s
      = runActs (List.replicate (s.tail - s.tailW).toNat (.agent .syncT)) { s with headR := s.head } :=
        runActs_append (runActs_syncH_catchesUp s)
    _ = .next { s with headR := s.head, tailW := s.tail } := runActs_syncT_catchesUp { s with headR := s.head }

/-! ### The status codes -/

/-- Settles O59: which codes each status register holds is a part of the invariant. -/
theorem reservedStatusCodesAreNeverProduced : Obligations.ReservedStatusCodesAreNeverProduced := fun _ h =>
  have hinv := Fifo.inv_of_reachable h
  ⟨hinv.wStatus, hinv.rStatus, hinv.tStatus⟩

end Sys2Proof.Proofs.Encoding
end

section
/-! PROOFS. 40_producer_ops.md: the W commands and WENG's step (R121, R123 to R130), the full-buffer law (R122), a
pending PUSH_BLOCKING under the steps of the other agents (R123, R124), and the laws of full, empty and size (R131, and R157 of
41_consumer_ops.md). -/

namespace Sys2Proof.Proofs.Producer

open Sys2Proof Sys2Proof.Machine

/-! ### Full, empty and size -/

/-- Two indices are at distance 0 exactly where they are the same. -/
theorem toNat_sub_eq_zero_iff {n : Nat} (x y : BitVec n) : (x - y).toNat = 0 ↔ x = y := by
  rw [← BitVec.toNat_zero, BitVec.toNat_inj]
  exact sub_eq_zero

/-- An index is one short of another exactly where their distance is all but one of a lap. -/
theorem toNat_sub_eq_pred_iff {n : Nat} (x y : BitVec n) : (x - y).toNat = 2 ^ n - 1 ↔ x + 1 = y := by
  have hx := x.isLt
  have hy := y.isLt
  rw [index_eq_iff, toNat_distance, toNat_succ_index]
  split_ifs <;> omega

/-- Settles O48: each view's size is a distance of two indices. -/
theorem fullAndEmptyAreSizes : Obligations.FullAndEmptyAreSizes := fun s =>
  ⟨Nat.le_sub_one_of_lt s.sizeW.isLt, fullW_iff s,
    emptyW_eq_true.trans (toNat_sub_eq_zero_iff s.head s.tailW).symm,
    Nat.le_sub_one_of_lt s.sizeR.isLt,
    fullR_eq_true.trans (toNat_sub_eq_pred_iff s.headR s.tail).symm,
    emptyR_iff s⟩

/-! ### Commands that only complete -/

/-- At a ready port a command that only completes does complete. -/
theorem issueW_completeW {s : State} (hb : s.wBusy = false) (m : Mnemonic) (st : Status) (rd : State → Option Word64) :
    issueW s (fun s => .next (s.completeW m st (rd s))) = .next (s.completeW m st (rd s)) := issueW_ready hb _

/-- Settles O7: at a ready port both only complete. -/
theorem wNopAndReservedWCodeOnlyComplete : Obligations.WNopAndReservedWCodeOnlyComplete :=
  ⟨fun _ hb => ⟨issueW_completeW hb .wNop .ok fun _ => none, issueW_completeW hb .wReserved111 .illegal fun _ => none⟩,
    fun d a b => ⟨Encoding.decode_wWord 0 d a b, Encoding.decode_wWord 7 d a b⟩⟩

theorem boolResult_beq {n : Nat} (x y : BitVec n) : boolResult (x == y) = if x = y then 1 else 0 := by
  simp [boolResult]

theorem zext64_eq_ofNat {n : Nat} (v : BitVec n) : zext64 v = BitVec.ofNat 64 v.toNat :=
  (BitVec.ofNat_toNat 64 v).symm

/-- `head ⊖ tail_w` on natural numbers (00_scope.md R14). -/
theorem toNat_sub_index {n : Nat} (x y : BitVec n) : (x - y).toNat = (x.toNat + 2 ^ n - y.toNat) % 2 ^ n := by
  rw [BitVec.toNat_sub', ← Nat.add_sub_assoc y.isLt.le]

/-- Settles O10: each query completes with its value, rewritten as the statement computes it. -/
theorem producerQueriesAnswerInTheProducersView : Obligations.ProducerQueriesAnswerInTheProducersView := by
  intro s hb
  have hfull : boolResult s.fullW = if s.head + 1 = s.tailW then 1 else 0 := boolResult_beq _ _
  have hempty : boolResult s.emptyW = if s.head = s.tailW then 1 else 0 := boolResult_beq _ _
  have hsize : zext64 s.sizeW =
      BitVec.ofNat 64 ((s.head.toNat + 2 ^ s.cfg.A - s.tailW.toNat) % 2 ^ s.cfg.A) := by
    rw [zext64_eq_ofNat, State.sizeW, toNat_sub_index]
  rw [← hfull, ← hempty, ← hsize, ← zext64_eq_ofNat]
  exact ⟨issueW_completeW hb .wFull .ok fun s => some (boolResult s.fullW),
    issueW_completeW hb .wEmpty .ok fun s => some (boolResult s.emptyW),
    issueW_completeW hb .wSize .ok fun s => some (zext64 s.sizeW),
    issueW_completeW hb .wOvf .ok fun s => some (zext64 s.ovf)⟩

/-! ### Pushes -/

/-- The state a PUSH leaves where it is dropped (40_producer_ops.md R121). -/
def dropPush (s : State) : State := { s with ovf := s.ovf + 1 }.completeW .push .full none

/-- The state a PUSH leaves where its item is stored (40_producer_ops.md R121). -/
def storePush (s : State) (d : Word64) : State := (s.pushItem (itemOperand s.cfg d)).completeW .push .ok none

theorem exec_push_of_full {s : State} (hb : s.wBusy = false) (hf : s.fullW = true) (d : Word64) :
    exec (.push d) s = .next (dropPush s) := by
  simp [exec, execPush, dropPush, hb, hf]

theorem exec_push_of_not_full {s : State} (hb : s.wBusy = false) (hf : s.fullW = false) (d : Word64) :
    exec (.push d) s = .next (storePush s d) := Fifo.exec_push_of_not_full hb hf d

theorem exec_pushBlocking_of_full {s : State} (hb : s.wBusy = false) (hf : s.fullW = true) (d : Word64) :
    exec (.pushBlocking d) s = .next (s.waitW (itemOperand s.cfg d)) := by
  simp [exec, execPushBlocking, hb, hf]

/-- Settles O8: a push that is not dropped is one write, at slot `head`. -/
theorem pushStoresOrDropsTheItem : Obligations.PushStoresOrDropsTheItem :=
  ⟨fun d _ hb hfull => exec_push_of_full hb (fullW_eq_true.mpr hfull) d,
    fun d s hb hfree => ⟨s.mem.write s.head.toNat (itemOperand s.cfg d),
      exec_push_of_not_full hb (fullW_eq_false.mpr hfree) d, fun i => read_write s.mem s.head.toNat i _⟩,
    Encoding.decode_wWord 1⟩

/-- Settles O9: as O8, with a wait in place of the drop. -/
theorem pushBlockingStoresOrWaits : Obligations.PushBlockingStoresOrWaits :=
  ⟨fun d s hb hfree => ⟨s.mem.write s.head.toNat (itemOperand s.cfg d),
      Fifo.exec_pushBlocking_of_not_full hb (fullW_eq_false.mpr hfree) d, fun i => read_write s.mem s.head.toNat i _⟩,
    fun d _ hb hfull => exec_pushBlocking_of_full hb (fullW_eq_true.mpr hfull) d,
    Encoding.decode_wWord 2⟩

theorem wengEnabled_eq_false {s : State} : s.wengEnabled = false ↔ s.wBusy = false ∨ s.head + 1 = s.tailW := by
  rw [State.wengEnabled, Bool.and_eq_false_iff, Bool.not_eq_false', fullW_eq_true]

/-- Settles O11: WENG's step is the write of the latched item at slot `head`, and where it is not enabled the turn
passes. -/
theorem engineCompletesAPendingPush : Obligations.EngineCompletesAPendingPush :=
  ⟨fun s hb hfree => ⟨s.mem.write s.head.toNat s.wPdata,
      Fifo.runAgent_weng_of_not_full hb (fullW_eq_false.mpr hfree), fun i => read_write s.mem s.head.toNat i _⟩,
    fun s h => Scope.anAgentThatIsNotEnabledChangesNothing .weng s (wengEnabled_eq_false.mpr h)⟩

/-! ### A pending PUSH_BLOCKING and the other agents -/

/-- A command of another port leaves alone what WENG's step is enabled by. -/
theorem execEffect_keeps_wPort {s t : State} {i : Instr} {p : Port} (hp : i.port? = some p) (hne : p ≠ .w)
    (he : ExecEffect s i t) : t.wBusy = s.wBusy ∧ t.fullW = s.fullW := by
  cases he with
  | doneW _ _ _ hw => exact absurd (Option.some.inj (hp.symm.trans hw)) hne
  | dropped | pushed | pushedAtOnce | waitsW => exact absurd (Option.some.inj hp).symm hne
  | _ => exact ⟨rfl, rfl⟩

/-- While a PUSH_BLOCKING is pending, only WENG and RST end the wait, and of the other agents only SYNC_T changes
whether the producer's view is full (40_producer_ops.md R124). -/
theorem agentEffect_while_wBusy {s t : State} {a : Agent} (hb : s.wBusy = true) (hweng : a ≠ .weng) (hrst : a ≠ .rst)
    (he : AgentEffect s a t) :
    t.wBusy = true ∧ (t.fullW = s.fullW ∨ s.tailW ≠ s.tail ∧ t = s.syncTStep) := by
  cases he with
  | nothing | tengCompletes | syncH | tick => exact ⟨hb, .inl rfl⟩
  | syncT hbehind => exact ⟨hb, .inr ⟨hbehind, rfl⟩⟩
  | wengCompletes => exact absurd rfl hweng
  | rst => exact absurd rfl hrst
  | issues p c rest i _ _ _ hready _ hp he =>
    have hne : p ≠ .w := by
      rintro rfl
      simp [hb] at hready
    obtain ⟨hbusy, hfull⟩ := execEffect_keeps_wPort hp hne he
    have hbusy' : (s.withPresented p rest).wBusy = s.wBusy := by cases p <;> rfl
    have hfull' : (s.withPresented p rest).fullW = s.fullW := by cases p <;> rfl
    exact ⟨(hbusy.trans hbusy').trans hb, .inl (hfull.trans hfull')⟩

/-- A step of the view toward the tail leaves the FIFO not full in it: the size it shows falls by one. -/
theorem fullW_syncTStep {s : State} (h : s.Inv) (hbehind : s.tailW ≠ s.tail) : s.syncTStep.fullW = false := by
  have hd1 : s.d1 ≠ 0 := fun e => hbehind ((toNat_sub_eq_zero_iff s.tail s.tailW).mp e).symm
  have hsizeW := sizeW_eq h.order
  have hfalls : s.syncTStep.sizeW.toNat + 1 = s.sizeW.toNat :=
    Fifo.toNat_sub_succ (show s.sizeW.toNat ≠ 0 by omega)
  have horder := h.order
  refine Bool.eq_false_iff.mpr fun hfull => ?_
  have hmax : s.syncTStep.sizeW.toNat = s.cfg.N - 1 := (fullW_iff _).mp hfull
  omega

/-- Settles O50: the wait goes on, and the view stays not full or is moved toward the tail. -/
theorem aPushCompletionStaysEnabled : Obligations.APushCompletionStaysEnabled := by
  intro s t a h hen hweng hrst hrun
  obtain ⟨hb, hfree⟩ := wengEnabled_iff.mp hen
  obtain ⟨hb', hview⟩ := agentEffect_while_wBusy hb hweng hrst (runAgent_effect hrun)
  have hfree' : t.fullW = false := by
    rcases hview with hsame | ⟨hbehind, rfl⟩
    · exact hsame.trans (fullW_eq_false.mpr hfree)
    · exact fullW_syncTStep h hbehind
  exact wengEnabled_iff.mpr ⟨hb', fullW_eq_false.mp hfree'⟩

/-- A property of one state that every act but a reset keeps is kept by a list of acts without a reset. -/
theorem runActs_keeps_without_rst {P : State → Prop}
    (hact : ∀ {a s t}, a ≠ .agent .rst → P s → runAct a s = .next t → P t) {as : List Act} {s t : State}
    (hr : Act.agent .rst ∉ as) (hs : P s) (hrun : runActs as s = .next t) : P t := by
  induction as generalizing s with
  | nil =>
    obtain rfl := Host.Outcome.next.inj hrun
    exact hs
  | cons a rest ih =>
    obtain ⟨u, hu, ht⟩ := runActs_cons_next hrun
    obtain ⟨ha, hrest⟩ := List.ne_and_not_mem_of_not_mem_cons hr
    exact ih hrest (hact ha.symm hs hu) ht

/-- At N = 1 there is one index, so every view is full (40_producer_ops.md R123). -/
theorem succ_head_eq_tailW_of_one_slot {s : State} (hA : s.cfg.A = 0) : s.head + 1 = s.tailW := by
  have hN : 2 ^ s.cfg.A = 1 := by rw [hA, pow_zero]
  have h1 := (s.head + 1).isLt
  have h2 := s.tailW.isLt
  rw [index_eq_iff]
  omega

theorem runAct_keeps_wait_at_one_slot {a : Act} {s t : State} (hr : a ≠ .agent .rst) (hA : s.cfg.A = 0)
    (hb : s.wBusy = true) (hrun : runAct a s = .next t) : t.wBusy = true := by
  rcases runAct_effect hrun with ⟨g, rfl, he⟩ | ⟨p, -, rfl⟩ | ⟨p, cs, -, rfl⟩
  · by_cases hweng : g = .weng
    · subst hweng
      have hpass : runAgent .weng s = .next s :=
        Scope.anAgentThatIsNotEnabledChangesNothing .weng s
          (wengEnabled_eq_false.mpr (.inr (succ_head_eq_tailW_of_one_slot hA)))
      obtain rfl := Host.Outcome.next.inj (hpass.symm.trans hrun)
      exact hb
    · exact (agentEffect_while_wBusy hb hweng (fun e => hr (congrArg _ e)) he).1
  all_goals cases p <;> exact hb

/-- Settles O31: no act but a reset changes the parameters or ends the wait. -/
theorem aBlockingPushIntoOneSlotNeverCompletes : Obligations.ABlockingPushIntoOneSlotNeverCompletes := by
  intro s t acts hA hb hr hrun
  have hkeep : t.cfg.A = 0 ∧ t.wBusy = true :=
    runActs_keeps_without_rst (P := fun s => s.cfg.A = 0 ∧ s.wBusy = true)
      (fun hne ⟨hA, hb⟩ hact =>
        have ⟨hcfg, _⟩ := Registers.extends_of_runAct hact
        ⟨hcfg ▸ hA, runAct_keeps_wait_at_one_slot hne hA hb hact⟩)
      hr ⟨hA, hb⟩ hrun
  exact hkeep.2

/-! ### The full-buffer law -/

/-- How many pushes the producer's view has room for (40_producer_ops.md R131). -/
def freeW (s : State) : Nat := s.cfg.N - 1 - s.sizeW.toNat

theorem freeW_eq_zero_of_full {s : State} (hf : s.fullW = true) : freeW s = 0 := by
  rw [freeW, (fullW_iff s).mp hf, Nat.sub_self]

theorem sizeW_succ_lt_of_not_full {s : State} (hf : s.fullW = false) : s.sizeW.toNat + 1 < s.cfg.N := by
  have hlt : s.sizeW.toNat < s.cfg.N := s.sizeW.isLt
  have hne : s.sizeW.toNat ≠ s.cfg.N - 1 := fun e => Bool.eq_false_iff.mp hf ((fullW_iff s).mpr e)
  omega

/-- Where the view shows no fewer items than there are, a push that it has room for finds room (20_memory.md R67). -/
theorem size_succ_lt_of_not_full {s : State} (hf : s.fullW = false) (hsize : s.size.toNat ≤ s.sizeW.toNat) :
    s.size.toNat + 1 < s.cfg.N := Nat.lt_of_le_of_lt (Nat.succ_le_succ hsize) (sizeW_succ_lt_of_not_full hf)

/-- A stored item adds one to the size in the producer's view. -/
theorem sizeW_storePush {s : State} (hf : s.fullW = false) (d : Word64) :
    (storePush s d).sizeW.toNat = s.sizeW.toNat + 1 := Fifo.toNat_succ_sub (sizeW_succ_lt_of_not_full hf)

theorem freeW_storePush {s : State} (hf : s.fullW = false) (d : Word64) : freeW s = freeW (storePush s d) + 1 := by
  have hlt := sizeW_succ_lt_of_not_full hf
  have hroom : freeW (storePush s d) = s.cfg.N - 1 - (s.sizeW.toNat + 1) := by
    rw [← sizeW_storePush hf d]
    rfl
  rw [hroom, freeW]
  omega

/-- From `s` to `t` a list of PUSHes ran: as many as there was room for were stored behind the items already there, and
the others were dropped and counted. -/
structure PushesRan (s : State) (items : List Word64) (t : State) : Prop where
  history : t.history = s.history
    ++ List.replicate (min (freeW s) items.length) (.completed ⟨.w, .push, .ok, none⟩)
    ++ List.replicate (items.length - freeW s) (.completed ⟨.w, .push, .full, none⟩)
  ovf : t.ovf = s.ovf + BitVec.ofNat 32 (items.length - freeW s)
  slots : t.arcSlot = s.arcSlot
  queue : t.queue = s.queue ++ (items.take (freeW s)).map fun d => some (zext64 (itemOperand s.cfg d))

namespace PushesRan

theorem nil (s : State) : PushesRan s [] s := ⟨by simp, by simp, rfl, by simp⟩

/-- A first PUSH that is dropped leaves as little room as there was: none. -/
theorem cons_dropped {s t : State} {d : Word64} {rest : List Word64} (hf : s.fullW = true)
    (h : PushesRan (dropPush s) rest t) : PushesRan s (d :: rest) t := by
  have hnone : freeW s = 0 := freeW_eq_zero_of_full hf
  have hnone' : freeW (dropPush s) = 0 := hnone
  obtain ⟨hhistory, hovf, hslots, hqueue⟩ := h
  rw [hnone'] at hhistory hovf hqueue
  refine ⟨?_, ?_, hslots, ?_⟩
  · rw [hhistory, hnone]
    simp [dropPush, State.recorded, List.replicate_succ]
  · rw [hovf, hnone, Nat.sub_zero, Nat.sub_zero, List.length_cons, Nat.add_comm, BitVec.ofNat_add, ← BitVec.add_assoc]
    rfl
  · rw [hqueue, hnone]
    rfl

/-- A first PUSH that is stored takes up one place. -/
theorem cons_stored {s t : State} {d : Word64} {rest : List Word64} (hf : s.fullW = false)
    (hsize : s.size.toNat ≤ s.sizeW.toNat) (h : PushesRan (storePush s d) rest t) : PushesRan s (d :: rest) t := by
  have hroom : freeW s = freeW (storePush s d) + 1 := freeW_storePush hf d
  have hlt : s.size.toNat + 1 < s.cfg.N := size_succ_lt_of_not_full hf hsize
  have hstored : (storePush s d).queue = s.queue ++ [some (zext64 (itemOperand s.cfg d))] :=
    Fifo.queue_pushItem hlt (itemOperand s.cfg d)
  obtain ⟨hhistory, hovf, hslots, hqueue⟩ := h
  refine ⟨?_, ?_, hslots, ?_⟩
  · rw [hhistory, hroom, List.length_cons, Nat.add_min_add_right, Nat.add_sub_add_right, List.replicate_succ]
    simp [storePush, State.recorded]
  · rw [hovf, hroom, List.length_cons, Nat.add_sub_add_right]
    rfl
  · rw [hqueue, hroom, hstored, List.take_succ_cons, List.map_cons, List.append_assoc]
    rfl

end PushesRan

/-- PUSHes in a row, with nothing in between, all run. That the view shows no fewer items than there are keeps the items
already stored from being written over (20_memory.md R67). -/
theorem execAll_push (items : List Word64) {s : State} (hb : s.wBusy = false) (hsize : s.size.toNat ≤ s.sizeW.toNat) :
    ∃ t, execAll (items.map Instr.push) s = .next t ∧ PushesRan s items t := by
  induction items generalizing s with
  | nil => exact ⟨s, rfl, .nil s⟩
  | cons d rest ih =>
    rw [List.map_cons, execAll]
    cases hf : s.fullW with
    | true =>
      rw [exec_push_of_full hb hf]
      obtain ⟨t, hrun, ht⟩ := ih (s := dropPush s) hb hsize
      exact ⟨t, hrun, ht.cons_dropped hf⟩
    | false =>
      have hgrow : (storePush s d).size.toNat = s.size.toNat + 1 :=
        Fifo.toNat_succ_sub (size_succ_lt_of_not_full hf hsize)
      have hsize' : (storePush s d).size.toNat ≤ (storePush s d).sizeW.toNat := by
        rw [hgrow, sizeW_storePush hf]
        exact Nat.succ_le_succ hsize
      rw [exec_push_of_not_full hb hf]
      obtain ⟨t, hrun, ht⟩ := ih (s := storePush s d) hb hsize'
      exact ⟨t, hrun, ht.cons_stored hf hsize⟩

/-- The queue, read slot by slot. -/
theorem getElem?_queue {s : State} {k : Nat} (hk : k < s.queue.length) :
    s.queue[k]? = some ((s.mem.read (s.arcSlot k)).map zext64) := by
  have hk' : k < s.size.toNat := by simpa [State.queue] using hk
  simp [State.queue, hk']

theorem queue_of_empty {s : State} (h : s.head = s.tail) : s.queue = [] := by
  simp [State.queue, State.size, h]

theorem arcSlot_of_empty {s : State} (h : s.head = s.tail) (k : Nat) :
    s.arcSlot k = (s.head.toNat + k) % s.cfg.N := by
  rw [State.arcSlot, ← h, BitVec.toNat_add, BitVec.toNat_ofNat, Nat.add_mod_mod]
  rfl

/-- Into an empty FIFO, the slots from the old `head` on hold what the PUSHes stored, in order. -/
theorem PushesRan.read_of_empty {s t : State} {items : List Word64} (h : PushesRan s items t) (hempty : s.head = s.tail)
    {k : Nat} (hk : k < freeW s) (hlen : k < items.length) :
    (t.mem.read ((s.head.toNat + k) % s.cfg.N)).map zext64 = (items[k]?).map fun d => zext64 (itemOperand s.cfg d) := by
  have hqueue : t.queue = (items.take (freeW s)).map fun d => some (zext64 (itemOperand s.cfg d)) := by
    rw [h.queue, queue_of_empty hempty, List.nil_append]
  have hin : k < t.queue.length := by
    rw [hqueue, List.length_map, List.length_take]
    omega
  have hread := getElem?_queue hin
  rw [h.slots, arcSlot_of_empty hempty, hqueue, List.getElem?_map, List.getElem?_take_of_lt hk] at hread
  rw [List.getElem?_eq_getElem hlen] at hread ⊢
  exact (Option.some.inj hread).symm

/-- Settles O13: in an empty FIFO the producer's view shows as many items as it lags by, so N PUSHes find room for
N−1−`lag`. -/
theorem fullBufferLaw : Obligations.FullBufferLaw := by
  intro s items lag hb hempty hlag hlen
  have hsizeW : s.sizeW.toNat = lag := by rw [State.sizeW, hempty, hlag]
  have hsize : s.size.toNat = 0 := (toNat_sub_eq_zero_iff s.head s.tail).mpr hempty
  have hlt : lag < s.cfg.N := hsizeW ▸ s.sizeW.isLt
  have hfree : freeW s = s.cfg.N - 1 - lag := by rw [freeW, hsizeW]
  have hfit : min (freeW s) items.length = s.cfg.N - 1 - lag := by omega
  have hdrop : items.length - freeW s = lag + 1 := by omega
  obtain ⟨t, hrun, ht⟩ := execAll_push items hb (hsize ▸ Nat.zero_le _)
  refine ⟨t, hrun, ?_, ?_, fun k hk => ht.read_of_empty hempty (by omega) (by omega)⟩
  · rw [ht.history, hfit, hdrop]
  · rw [ht.ovf, hdrop]

end Sys2Proof.Proofs.Producer
end

section
/-! PROOFS. 41_consumer_ops.md: the R commands (R151 to R156), and what POPs in a row drain from a FIFO whose consumer's
view is current (R157, its last sentence). -/

namespace Sys2Proof.Proofs.Consumer

open Sys2Proof Sys2Proof.Machine

/-! ### Commands that only complete -/

/-- An R command is never turned away, so one that only completes does complete (30_encoding.md R91). -/
theorem issueR_completeR (s : State) (m : Mnemonic) (st : Status) (rd : State → Option Word64) :
    issueR s (fun s => .next (s.completeR m st (rd s))) = .next (s.completeR m st (rd s)) := issueR_eq s _

/-- Settles O14: all four only complete. -/
theorem rNopAndReservedRCodesOnlyComplete : Obligations.RNopAndReservedRCodesOnlyComplete :=
  ⟨fun s => ⟨issueR_completeR s .rNop .ok fun _ => none, issueR_completeR s .rReserved010 .illegal fun _ => none,
      issueR_completeR s .rReserved110 .illegal fun _ => none, issueR_completeR s .rReserved111 .illegal fun _ => none⟩,
    fun d a b => ⟨Encoding.decode_rWord 0 d a b, Encoding.decode_rWord 2 d a b, Encoding.decode_rWord 6 d a b,
      Encoding.decode_rWord 7 d a b⟩⟩

/-- Settles O17: each query completes with its value, rewritten as the statement computes it. -/
theorem consumerQueriesAnswerInTheConsumersView : Obligations.ConsumerQueriesAnswerInTheConsumersView := by
  intro s
  have hfull : boolResult s.fullR = if s.headR + 1 = s.tail then 1 else 0 := Producer.boolResult_beq _ _
  have hempty : boolResult s.emptyR = if s.tail = s.headR then 1 else 0 := Producer.boolResult_beq _ _
  have hsize : zext64 s.sizeR =
      BitVec.ofNat 64 ((s.headR.toNat + 2 ^ s.cfg.A - s.tail.toNat) % 2 ^ s.cfg.A) := by
    rw [Producer.zext64_eq_ofNat, State.sizeR, Producer.toNat_sub_index]
  rw [← hfull, ← hempty, ← hsize]
  exact ⟨issueR_completeR s .rFull .ok fun s => some (boolResult s.fullR),
    issueR_completeR s .rEmpty .ok fun s => some (boolResult s.emptyR),
    issueR_completeR s .rSize .ok fun s => some (zext64 s.sizeR)⟩

/-! ### POP -/

/-- The state a POP leaves where it finds no item (41_consumer_ops.md R151). -/
def emptyPop (s : State) : State := s.completeR .pop .empty none

/-- The state a POP leaves where it returns the item `v` (41_consumer_ops.md R151). -/
def itemPop (s : State) (v : BitVec s.cfg.W) : State := s.popItem.completeR .pop .ok (some (zext64 v))

theorem exec_pop_of_empty {s : State} (he : s.emptyR = true) : exec .pop s = .next (emptyPop s) := by
  simp [exec, execPop, emptyPop, he]

theorem exec_pop_of_item {s : State} {v : BitVec s.cfg.W} (hne : s.emptyR = false)
    (hv : s.mem.read s.tail.toNat = some v) : exec .pop s = .next (itemPop s v) := by
  simp [exec, execPop, itemPop, hne, hv]

/-- Settles O15: the item is returned zero-extended, which is its value as a 64-bit word. -/
theorem popReturnsTheOldestItemOrEmpty : Obligations.PopReturnsTheOldestItemOrEmpty := by
  refine ⟨fun s he => exec_pop_of_empty (emptyR_eq_true.mpr he), fun s v hne hv => ?_, Encoding.decode_rWord 1⟩
  rw [← Producer.zext64_eq_ofNat]
  exact exec_pop_of_item (emptyR_eq_false.mpr hne) hv

/-! ### The drain law -/

/-- A current view of the consumer is empty exactly where nothing is stored. -/
theorem emptyR_iff_of_current {s : State} (hcur : s.headR = s.head) : s.emptyR = true ↔ s.size.toNat = 0 := by
  rw [emptyR_eq_true, hcur, State.size, Producer.toNat_sub_eq_zero_iff]
  exact eq_comm

/-- From `s` to `t` POPs in a row took every stored item, in order, and one more found none. -/
structure Drained (s t : State) : Prop where
  history : t.history = s.history ++ s.queue.map (fun v => .completed ⟨.r, .pop, .ok, v⟩)
    ++ [.completed ⟨.r, .pop, .empty, none⟩]
  tail : t.tail.toNat = s.head.toNat
  rStatus : t.rStatus = 2

namespace Drained

/-- The POP that finds no item ends the drain. -/
theorem of_empty {s : State} (h : s.head = s.tail) : Drained s (emptyPop s) where
  history := by
    rw [Producer.queue_of_empty h, List.map_nil, List.append_nil]
    rfl
  tail := congrArg BitVec.toNat h.symm
  rStatus := rfl

/-- A first POP that returns an item takes it off the front of the queue. -/
theorem of_itemPop {s t : State} {v : BitVec s.cfg.W} (hsize : s.size.toNat ≠ 0)
    (hv : s.mem.read s.tail.toNat = some v) (h : Drained (itemPop s v) t) : Drained s t where
  history := by
    have hqueue : s.queue = some (zext64 v) :: (itemPop s v).queue := by
      rw [Fifo.queue_eq_cons_popItem hsize, hv]
      rfl
    have hhistory : (itemPop s v).history = s.history ++ [.completed ⟨.r, .pop, .ok, some (zext64 v)⟩] := rfl
    rw [h.history, hhistory, hqueue, List.map_cons, List.append_assoc s.history, List.singleton_append]
  tail := h.tail
  rStatus := h.rStatus

end Drained

/-- As many POPs in a row as there are items, and one more, drain a FIFO whose consumer's view is current: each that
returns an item keeps the invariant and the view, and leaves one item less. -/
theorem execAll_pop_drains (k : Nat) {s : State} (h : s.Inv) (hcur : s.headR = s.head) (hsize : s.size.toNat = k) :
    ∃ t, execAll (List.replicate (k + 1) .pop) s = .next t ∧ Drained s t := by
  induction k generalizing s with
  | zero =>
    have hempty : s.head = s.tail := (Producer.toNat_sub_eq_zero_iff s.head s.tail).mp hsize
    rw [List.replicate_succ, execAll, exec_pop_of_empty ((emptyR_iff_of_current hcur).mpr hsize)]
    exact ⟨emptyPop s, rfl, .of_empty hempty⟩
  | succ k ih =>
    have hstored : s.size.toNat ≠ 0 := by omega
    have hne : s.emptyR = false := Bool.eq_false_iff.mpr (mt (emptyR_iff_of_current hcur).mp hstored)
    obtain ⟨v, hv⟩ := Option.isSome_iff_exists.mp (Fifo.read_tail_isSome h hne)
    have hshrink : (itemPop s v).size.toNat + 1 = s.size.toNat := Fifo.toNat_sub_succ hstored
    obtain ⟨t, hrun, ht⟩ := ih (s := itemPop s v) (inv_pop h hne _) hcur (by omega)
    rw [List.replicate_succ, execAll, exec_pop_of_item hne hv]
    exact ⟨t, hrun, ht.of_itemPop hstored hv⟩

/-- Settles O18, by induction on the number of items stored. -/
theorem drainLaw : Obligations.DrainLaw := by
  intro s h hcur
  obtain ⟨t, hrun, hhistory, htail, hstatus⟩ := execAll_pop_drains s.size.toNat h hcur rfl
  exact ⟨t, hrun, hhistory, htail, hstatus⟩

end Sys2Proof.Proofs.Consumer
end

section
/-! PROOFS. 42_counter_ops.md: the T commands and TENG's step (R171 to R178, R180), the tick (R179) and the order of both
at one clock edge (R181), the interval law (R182), that the T port and the FIFO share no state (R170), and a pending
SLEEP_UNTIL under the steps of the other agents (R176, R177). -/

namespace Sys2Proof.Proofs.Counter

open Sys2Proof Sys2Proof.Machine

/-! ### Commands that only complete -/

/-- At a ready port a command that only completes does complete. -/
theorem issueT_completeT {s : State} (hb : s.tBusy = false) (m : Mnemonic) (st : Status) (rd : State → Option Word64) :
    issueT s (fun s => .next (s.completeT m st (rd s))) = .next (s.completeT m st (rd s)) := issueT_ready hb _

/-- Settles O19: at a ready port both only complete. -/
theorem tNopAndReservedTCodeOnlyComplete : Obligations.TNopAndReservedTCodeOnlyComplete :=
  ⟨fun _ hb => ⟨issueT_completeT hb .tNop .ok fun _ => none, issueT_completeT hb .tReserved111 .illegal fun _ => none⟩,
    fun d a b => ⟨Encoding.decode_tWord 0 d a b, Encoding.decode_tWord 7 d a b⟩⟩

theorem exec_now {s : State} (hb : s.tBusy = false) :
    exec .now s = .next (s.completeT .now .ok (some (zext64 s.count))) :=
  issueT_completeT hb .now .ok fun s => some (zext64 s.count)

/-- Settles O20: the zero-extended count is its value as a 64-bit word. -/
theorem nowReturnsTheCount : Obligations.NowReturnsTheCount := by
  refine ⟨fun s hb => ?_, Encoding.decode_tWord 1⟩
  rw [← Producer.zext64_eq_ofNat]
  exact exec_now hb

theorem exec_init {s : State} (hb : s.tBusy = false) :
    exec .init s = .next ({ s with count := 0 }.completeT .init .ok none) := by
  simp only [exec, execInit, issueT_ready hb]

/-- Settles O21: the completion keeps `t_rdata`. -/
theorem initClearsTheCount : Obligations.InitClearsTheCount :=
  ⟨fun _ hb => exec_init hb, Encoding.decode_tWord 6⟩

/-! ### Interval arithmetic -/

/-- The result of ELAPSED (42_counter_ops.md R173). -/
def elapsedResult (c : Config) (start now : Word64) : Word64 := zext64 (tickOperand c now - tickOperand c start)

theorem exec_elapsed {s : State} (hb : s.tBusy = false) (start now : Word64) :
    exec (.elapsed start now) s = .next (s.completeT .elapsed .ok (some (elapsedResult s.cfg start now))) :=
  issueT_completeT hb .elapsed .ok fun s => some (elapsedResult s.cfg start now)

/-- The counter fits the 64-bit buses (00_scope.md R9). -/
theorem CW_le_64 (c : Config) : c.CW ≤ 64 :=
  have ⟨_, _, _, _, _, hCW⟩ := config_bounds c
  hCW

@[simp] theorem tickOperand_toNat (c : Config) (bus : Word64) : (tickOperand c bus).toNat = bus.toNat % 2 ^ c.CW :=
  BitVec.toNat_setWidth ..

@[simp] theorem periodOperand_toNat (bus : Word64) : (periodOperand bus).toNat = bus.toNat % 2 ^ 32 :=
  BitVec.toNat_setWidth ..

theorem elapsedResult_toNat (c : Config) (start now : Word64) :
    (elapsedResult c start now).toNat =
      (now.toNat % 2 ^ c.CW + 2 ^ c.CW - start.toNat % 2 ^ c.CW) % 2 ^ c.CW := by
  rw [elapsedResult, zext64_toNat _ (CW_le_64 c), Producer.toNat_sub_index, tickOperand_toNat, tickOperand_toNat]

/-- Settles O22: the difference of the tick operands, on natural numbers. -/
theorem elapsedIsTheWrappingInterval : Obligations.ElapsedIsTheWrappingInterval :=
  ⟨fun a b s hb => ⟨elapsedResult s.cfg a b, elapsedResult_toNat s.cfg a b, exec_elapsed hb a b⟩,
    Encoding.decode_tWord 2⟩

/-- The result of T2D (42_counter_ops.md R174). -/
def t2dResult (c : Config) (ticks period : Word64) : Word64 :=
  zext64 (tickOperand c ticks) * zext64 (periodOperand period)

theorem t2dResult_toNat (c : Config) (ticks period : Word64) :
    (t2dResult c ticks period).toNat = (ticks.toNat % 2 ^ c.CW) * (period.toNat % 2 ^ 32) % 2 ^ 64 := by
  rw [t2dResult, BitVec.toNat_mul, zext64_toNat _ (CW_le_64 c), zext64_toNat _ (by decide), tickOperand_toNat,
    periodOperand_toNat]

/-- Two 32-bit factors have a 64-bit product. -/
theorem mul_mod_lt_of_le_32 {w : Nat} (hw : w ≤ 32) (m n : Nat) : (m % 2 ^ w) * (n % 2 ^ 32) < 2 ^ 64 := by
  have hm : m % 2 ^ w < 2 ^ 32 :=
    Nat.lt_of_lt_of_le (Nat.mod_lt _ (Nat.two_pow_pos w)) (Nat.pow_le_pow_right (by decide) hw)
  have hn : n % 2 ^ 32 < 2 ^ 32 := Nat.mod_lt _ (Nat.two_pow_pos 32)
  calc (m % 2 ^ w) * (n % 2 ^ 32)
      < 2 ^ 32 * 2 ^ 32 := Nat.mul_lt_mul'' hm hn
    _ = 2 ^ 64 := (Nat.pow_add 2 32 32).symm

/-- Settles O23: 64-bit multiplication is modulo 2^64, which short factors do not reach. -/
theorem ticksToDurationMultipliesModulo64Bits : Obligations.TicksToDurationMultipliesModulo64Bits := by
  refine ⟨fun a b s hb => ⟨t2dResult s.cfg a b, t2dResult_toNat s.cfg a b, fun hCW => ?_, ?_⟩, Encoding.decode_tWord 3⟩
  · rw [t2dResult_toNat, Nat.mod_eq_of_lt (mul_mod_lt_of_le_32 hCW _ _)]
  · exact issueT_completeT hb .t2d .ok fun s => some (t2dResult s.cfg a b)

theorem periodOperand_eq_zero_iff (period : Word64) : periodOperand period = 0 ↔ period.toNat % 2 ^ 32 = 0 := by
  rw [index_eq_iff, periodOperand_toNat]
  rfl

theorem exec_d2t_of_zero {s : State} (hb : s.tBusy = false) (duration : Word64) {period : Word64}
    (hz : periodOperand period = 0) :
    exec (.d2t duration period) s = .next (s.completeT .d2t .divZero (some (BitVec.allOnes 64))) := by
  simp only [exec, execD2t, issueT_ready hb, if_pos hz]

theorem exec_d2t_of_ne_zero {s : State} (hb : s.tBusy = false) (duration : Word64) {period : Word64}
    (hnz : periodOperand period ≠ 0) :
    exec (.d2t duration period) s =
      .next (s.completeT .d2t .ok (some (duration / zext64 (periodOperand period)))) := by
  simp only [exec, execD2t, issueT_ready hb, if_neg hnz]

/-- Settles O24: the case split of D2T is on the period operand as a number. -/
theorem durationToTicksDividesOrReportsDivZero : Obligations.DurationToTicksDividesOrReportsDivZero := by
  refine ⟨fun a b s hb hz => exec_d2t_of_zero hb a ((periodOperand_eq_zero_iff b).mpr hz), fun a b s hb hnz =>
    ⟨a / zext64 (periodOperand b), ?_, exec_d2t_of_ne_zero hb a (mt (periodOperand_eq_zero_iff b).mp hnz)⟩,
    Encoding.decode_tWord 4⟩
  rw [BitVec.toNat_udiv, zext64_toNat _ (by decide), periodOperand_toNat]

/-! ### SLEEP_UNTIL, TENG and the tick -/

theorem exec_sleepUntil_of_reached {s : State} {target : Word64} (hb : s.tBusy = false)
    (hc : s.reached target = true) :
    exec (.sleepUntil target) s = .next (s.completeT .sleepUntil .ok (some (zext64 s.count))) := by
  simp [exec, execSleepUntil, hb, hc]

theorem exec_sleepUntil_of_not_reached {s : State} {target : Word64} (hb : s.tBusy = false)
    (hc : s.reached target = false) : exec (.sleepUntil target) s = .next (s.waitT target) := by
  simp [exec, execSleepUntil, hb, hc]

/-- Settles O25: the comparison of the issue step, on natural numbers, decides. -/
theorem sleepUntilCompletesOrWaits : Obligations.SleepUntilCompletesOrWaits := by
  refine ⟨fun a s hb hle => ?_, fun a s hb hlt => exec_sleepUntil_of_not_reached hb (reached_eq_false.mpr hlt),
    Encoding.decode_tWord 5⟩
  rw [← Producer.zext64_eq_ofNat]
  exact exec_sleepUntil_of_reached hb (reached_iff.mpr hle)

theorem tengEnabled_eq_false {s : State} :
    s.tengEnabled = false ↔ s.tBusy = false ∨ s.count.toNat < s.tTarget.toNat := by
  rw [State.tengEnabled, Bool.and_eq_false_iff, reached_eq_false]

theorem runAgent_teng_of_enabled {s : State} (h : s.tengEnabled = true) : runAgent .teng s = .next s.tengComplete :=
  if_pos h

theorem runAgent_tick_of_tengEnabled {s : State} (h : s.tengEnabled = true) : runAgent .tick s = .next s := if_pos h

theorem runAgent_tick_of_not_tengEnabled {s : State} (h : s.tengEnabled = false) :
    runAgent .tick s = .next s.tickStep := if_neg (Bool.eq_false_iff.mp h)

/-- Settles O26: TENG's step is enabled exactly in the first clause, and the tick's is not there. -/
theorem engineCompletesAPendingSleepBeforeAnyTick : Obligations.EngineCompletesAPendingSleepBeforeAnyTick := by
  refine ⟨fun s hb hle => ?_,
    fun s h => Scope.anAgentThatIsNotEnabledChangesNothing .teng s (tengEnabled_eq_false.mpr h)⟩
  have hen : s.tengEnabled = true := tengEnabled_iff.mpr ⟨hb, hle⟩
  rw [← Producer.zext64_eq_ofNat]
  exact ⟨runAgent_teng_of_enabled hen, runAgent_tick_of_tengEnabled hen⟩

/-- Settles O27: the count of the tick's state, on natural numbers. -/
theorem tickAddsOneModuloTheWidth : Obligations.TickAddsOneModuloTheWidth := by
  intro s h
  have hcount : BitVec.ofNat s.cfg.CW ((s.count.toNat + 1) % 2 ^ s.cfg.CW) = s.count + 1 := by
    rw [← Registers.toNat_succ_mod, BitVec.ofNat_toNat, BitVec.setWidth_eq]
  rw [hcount]
  exact runAgent_tick_of_not_tengEnabled (tengEnabled_eq_false.mpr h)

/-! ### One clock edge -/

theorem tengEnabled_of_ready {s : State} (hb : s.tBusy = false) : s.tengEnabled = false :=
  tengEnabled_eq_false.mpr (.inl hb)

theorem enabled_treq_of_presented {s : State} {c : Cmd} {cs : List Cmd} (hb : s.tBusy = false)
    (hc : s.tCmds = c :: cs) : enabled .treq s = true := by
  simp [enabled, State.tReady, hb, hc]

theorem not_enabled_treq_of_tBusy {s : State} (hb : s.tBusy = true) : enabled .treq s = false := by
  simp [enabled, State.tReady, hb]

theorem nextIsInit_iff_of_presented {s : State} {c : Cmd} {cs : List Cmd} {i : Instr} (hc : s.tCmds = c :: cs)
    (hd : decode c = .ok i) : s.nextIsInit = true ↔ i = .init := by
  cases i <;> simp [State.nextIsInit, hc, hd]

/-- At a ready port TREQ's turn runs the T command it presents. -/
theorem runAgent_treq_issues {s : State} {c : Cmd} {cs : List Cmd} {i : Instr} (hb : s.tBusy = false)
    (hc : s.tCmds = c :: cs) (hd : decode c = .ok i) (hp : i.port? = some .t) :
    runAgent .treq s = exec i { s with tCmds := cs } := by
  have hpresented : s.presented .t = c :: cs := hc
  simp [runAgent, requesterStep, hpresented, hb, hd, hp, State.withPresented]

/-- At a ready port an edge issues the presented command, and then takes its tick unless the command is INIT. -/
theorem tEdge_acts_issue {s : State} {c : Cmd} {cs : List Cmd} {i : Instr} (hb : s.tBusy = false)
    (hc : s.tCmds = c :: cs) (hd : decode c = .ok i) :
    (Slot.tEdge true true).acts s = .agent .treq :: if i = .init then [] else [.agent .tick] := by
  have hinit := nextIsInit_iff_of_presented hc hd
  by_cases h : i = .init <;>
    simp [Slot.acts, tPortAct, tickAct, tengEnabled_of_ready hb, enabled_treq_of_presented hb hc, hinit, h]

/-- At an edge where a wait may complete, it does, and the edge takes its tick, for nothing is issued. -/
theorem tEdge_acts_complete {s : State} (h : s.tengEnabled = true) (valid : Bool) :
    (Slot.tEdge valid true).acts s = [.agent .teng, .agent .tick] := by
  have ⟨hb, _⟩ := tengEnabled_iff.mp h
  simp [Slot.acts, tPortAct, tickAct, h, not_enabled_treq_of_tBusy hb]

theorem runActs_cons {a : Act} {rest : List Act} {s u : State} (h : runAct a s = .next u) :
    runActs (a :: rest) s = runActs rest u := by
  simp only [runActs, h]

/-- Settles O36: the port's act comes before the edge's tick, and the tick is taken in a state with no wait. -/
theorem oneCounterEdgeOrdersCommandBeforeTick : Obligations.OneCounterEdgeOrdersCommandBeforeTick := by
  refine ⟨fun s c cs hb hc hd => ?_, fun s c cs hb hc hd => ?_, fun s valid hb hle => ?_⟩
  · have hrun := (runAgent_treq_issues hb hc hd rfl).trans (exec_init (s := { s with tCmds := cs }) hb)
    rw [runSlot, tEdge_acts_issue hb hc hd, if_pos rfl, Encoding.runActs_singleton]
    exact hrun
  · have hrun : runAct (.agent .treq) s = .next _ :=
      (runAgent_treq_issues hb hc hd rfl).trans (exec_now (s := { s with tCmds := cs }) hb)
    rw [runSlot, tEdge_acts_issue hb hc hd, if_neg nofun, runActs_cons hrun, Encoding.runActs_singleton,
      ← Producer.zext64_eq_ofNat]
    exact runAgent_tick_of_not_tengEnabled (tengEnabled_of_ready hb)
  · have hen : s.tengEnabled = true := tengEnabled_iff.mpr ⟨hb, hle⟩
    have hrun : runAct (.agent .teng) s = .next s.tengComplete := runAgent_teng_of_enabled hen
    rw [runSlot, tEdge_acts_complete hen, runActs_cons hrun, Encoding.runActs_singleton, ← Producer.zext64_eq_ofNat]
    exact runAgent_tick_of_not_tengEnabled (s := s.tengComplete) (tengEnabled_of_ready rfl)

/-! ### The interval law -/

/-- An act that issues an INIT (42_counter_ops.md R178). -/
def issuesInit (a : Act) (s : State) : Prop :=
  a = .agent .treq ∧ enabled .treq s = true ∧ s.nextIsInit = true

/-- How many tick events an act takes (42_counter_ops.md R179). -/
def ticksOf (a : Act) (s : State) : Nat := if a = .agent .tick ∧ s.tengEnabled = false then 1 else 0

theorem ticksDuring_cons {a : Act} {rest : List Act} {s u : State} (h : runAct a s = .next u) :
    ticksDuring (a :: rest) s = ticksOf a s + ticksDuring rest u := by
  simp only [ticksDuring, ticksOf, h]

theorem initsDuring_cons_eq_zero {a : Act} {rest : List Act} {s u : State} (h : runAct a s = .next u)
    (hz : initsDuring (a :: rest) s = 0) : ¬ issuesInit a s ∧ initsDuring rest u = 0 := by
  simp only [initsDuring, h] at hz
  obtain ⟨hfirst, hrest⟩ := Nat.add_eq_zero_iff.mp hz
  exact ⟨fun hi => absurd (hfirst.symm.trans (if_pos hi)) Nat.zero_ne_one, hrest⟩

/-- An agent that is not RST and issues no INIT leaves the count but for its ticks. -/
theorem count_of_runAgent {g : Agent} {s t : State} (hr : g ≠ .rst) (hi : ¬ issuesInit (.agent g) s)
    (hrun : runAgent g s = .next t) :
    t.count.toNat = (s.count.toNat + ticksOf (.agent g) s) % 2 ^ s.cfg.CW := by
  by_cases htick : g = .tick ∧ s.tengEnabled = false
  · obtain ⟨rfl, hen⟩ := htick
    obtain rfl := Host.Outcome.next.inj ((runAgent_tick_of_not_tengEnabled hen).symm.trans hrun)
    rw [ticksOf, if_pos ⟨rfl, hen⟩]
    exact Registers.toNat_succ_mod s.count
  · have hnone : ticksOf (.agent g) s = 0 := if_neg (by simpa using htick)
    rw [hnone, Nat.add_zero, Nat.mod_eq_of_lt s.count.isLt]
    by_contra hne
    have hen : enabled g s = true := by
      by_contra hoff
      have hpass := Scope.anAgentThatIsNotEnabledChangesNothing g s (Bool.eq_false_iff.mpr hoff)
      obtain rfl := Host.Outcome.next.inj (hpass.symm.trans hrun)
      exact hne rfl
    rcases Registers.onlyTickInitAndResetWriteTheCount s t g hrun hne with
      ⟨rfl, -⟩ | ⟨rfl, -⟩ | ⟨rfl, -, c, cs, hc, hd⟩
    · exact htick ⟨rfl, by simpa [enabled] using hen⟩
    · exact hr rfl
    · exact hi ⟨rfl, hen, (nextIsInit_iff_of_presented hc hd).mpr rfl⟩

/-- The parameters stay and the count moves on by `n` ticks, modulo 2^CW. -/
structure Advances (s : State) (n : Nat) (t : State) : Prop where
  cfg : t.cfg = s.cfg
  count : t.count.toNat = (s.count.toNat + n) % 2 ^ s.cfg.CW

namespace Advances

theorem of_count {s t : State} (hcfg : t.cfg = s.cfg) (h : t.count.toNat = s.count.toNat) : Advances s 0 t :=
  ⟨hcfg, h.trans (Nat.mod_eq_of_lt s.count.isLt).symm⟩

theorem trans {s u t : State} {m n : Nat} (hsu : Advances s m u) (hut : Advances u n t) : Advances s (m + n) t where
  cfg := hut.cfg.trans hsu.cfg
  count := by rw [hut.count, hsu.count, hsu.cfg, Nat.mod_add_mod, Nat.add_assoc]

end Advances

theorem advances_of_runAct {a : Act} {s t : State} (hr : a ≠ .agent .rst) (hi : ¬ issuesInit a s)
    (hrun : runAct a s = .next t) : Advances s (ticksOf a s) t := by
  rcases runAct_effect hrun with ⟨g, rfl, -⟩ | ⟨p, rfl, rfl⟩ | ⟨p, cs, rfl, rfl⟩
  · have ⟨hcfg, _⟩ := Registers.extends_of_runAct hrun
    exact ⟨hcfg, count_of_runAgent (fun e => hr (congrArg _ e)) hi hrun⟩
  all_goals cases p <;> exact .of_count rfl rfl

theorem advances_of_runActs {acts : List Act} {s t : State} (hr : Act.agent .rst ∉ acts)
    (hi : initsDuring acts s = 0) (hrun : runActs acts s = .next t) : Advances s (ticksDuring acts s) t := by
  induction acts generalizing s with
  | nil =>
    obtain rfl := Host.Outcome.next.inj hrun
    exact .of_count rfl rfl
  | cons a rest ih =>
    obtain ⟨u, hu, ht⟩ := runActs_cons_next hrun
    obtain ⟨ha, hrest⟩ := List.ne_and_not_mem_of_not_mem_cons hr
    obtain ⟨hfirst, hlater⟩ := initsDuring_cons_eq_zero hu hi
    rw [ticksDuring_cons hu]
    exact (advances_of_runAct ha.symm hfirst hu).trans (ih hrest hlater ht)

/-- Ticks counted from `n` and read modulo `M`: below a whole turn of the counter it has wrapped or not. -/
theorem add_mod_of_lt {M n T : Nat} (hn : n < M) (hT : T < M) :
    (n + T) % M = if n + T < M then n + T else n + T - M := by
  split
  · next h => exact Nat.mod_eq_of_lt h
  · rw [Nat.mod_eq_sub_mod (by omega), Nat.mod_eq_of_lt (by omega)]

/-- The wrapping difference of two readings is the number of ticks between them. -/
theorem add_mod_sub_mod {M n T : Nat} (hn : n < M) : ((n + T) % M + M - n) % M = T % M := by
  have hr : T % M < M := Nat.mod_lt _ (by omega)
  rw [← Nat.add_mod_mod, add_mod_of_lt hn hr]
  split
  · rw [show n + T % M + M - n = T % M + M by omega, Nat.add_mod_right, Nat.mod_mod]
  · rw [show n + T % M - M + M - n = T % M by omega, Nat.mod_mod]

/-- A NOW at a ready port reads the count and leaves it. -/
theorem now_reads {s t : State} (hb : s.tBusy = false) (h : exec .now s = .next t) :
    t.tRdata.toNat = s.count.toNat ∧ t.tBusy = false ∧ Advances s 0 t := by
  obtain rfl := Host.Outcome.next.inj ((exec_now hb).symm.trans h)
  exact ⟨zext64_toNat s.count (CW_le_64 s.cfg), hb, .of_count rfl rfl⟩

theorem elapsed_reads {s t : State} {start now : Word64} (hb : s.tBusy = false)
    (h : exec (.elapsed start now) s = .next t) : t.tRdata = elapsedResult s.cfg start now := by
  obtain rfl := Host.Outcome.next.inj ((exec_elapsed hb start now).symm.trans h)
  rfl

/-- Settles O28: the count advances by the ticks between the two NOWs, which read it, and ELAPSED takes the wrapping
difference. -/
theorem intervalLaw : Obligations.IntervalLaw := by
  intro s s1 s2 s3 s4 acts hb hnow hr hi hrun hb2 hnow' helapsed
  obtain ⟨hn1, -, hadv1⟩ := now_reads hb hnow
  have hadv2 := advances_of_runActs hr hi hrun
  obtain ⟨hn2, hb3, hadv3⟩ := now_reads hb2 hnow'
  generalize ticksDuring acts s1 = T at *
  have hadv : Advances s T s2 := by simpa using hadv1.trans hadv2
  have hlt : s1.tRdata.toNat < 2 ^ s.cfg.CW := hn1 ▸ s.count.isLt
  have hnow2 : s3.tRdata.toNat = (s1.tRdata.toNat + T) % 2 ^ s.cfg.CW := by rw [hn2, hadv.count, hn1]
  have hdiff : s4.tRdata.toNat = T % 2 ^ s.cfg.CW := by
    rw [elapsed_reads hb3 helapsed, elapsedResult_toNat, hadv3.cfg, hadv.cfg, hnow2, Nat.mod_mod,
      Nat.mod_eq_of_lt hlt, add_mod_sub_mod hlt]
  refine ⟨hnow2, hdiff, fun hT => ?_, fun hsum => ?_, fun hwrap hT => ?_⟩
  · rw [hdiff, Nat.mod_eq_of_lt hT]
  · rw [hnow2, Nat.mod_eq_of_lt hsum]
    exact ⟨rfl, Nat.le_add_right _ _⟩
  · rw [hnow2, add_mod_of_lt hlt hT, if_neg (Nat.not_lt.mpr hwrap)]
    omega

/-! ### The T port and the FIFO share no state -/

/-- The state of the T port (10_state.md R39, R40), the count as a number. -/
structure TPort where
  count  : Nat
  busy   : Bool
  ack    : Bool
  target : Word64
  rdata  : Word64
  status : StatusWord

/-- What the T port holds in a state. -/
def tPort (s : State) : TPort := ⟨s.count.toNat, s.tBusy, s.tAck, s.tTarget, s.tRdata, s.tStatus⟩

/-- The state with another T port. -/
def setTPort (p : TPort) (s : State) : State :=
  { s with
    count := BitVec.ofNat _ p.count, tBusy := p.busy, tAck := p.ack, tTarget := p.target, tRdata := p.rdata,
    tStatus := p.status }

/-- A command of another port leaves the T port alone. -/
theorem execEffect_keeps_tPort {s t : State} {i : Instr} (hp : i.port? ≠ some .t) (he : ExecEffect s i t) :
    tPort t = tPort s := by
  cases he with
  | doneT _ _ _ ht => exact absurd ht hp
  | cleared | waitsT => exact absurd rfl hp
  | _ => rfl

/-- A function of the next state, on answers. -/
def mapNext (f : State → State) : Result → Result
  | .next t => .next (f t)
  | .fault r => .fault r
  | .refused r => .refused r

theorem issueW_setTPort {p : TPort} {s : State} {k : State → Result}
    (hk : k (setTPort p s) = mapNext (setTPort p) (k s)) :
    issueW (setTPort p s) k = mapNext (setTPort p) (issueW s k) := by
  cases hb : s.wBusy with
  | true => rw [issueW_busy hb, issueW_busy (s := setTPort p s) hb, mapNext]
  | false => rw [issueW_ready hb, issueW_ready (s := setTPort p s) hb, hk]

/-- A command that names another port answers the same whatever the T port holds. -/
theorem exec_setTPort {i : Instr} (hp : i.port? ≠ some .t) (p : TPort) (s : State) :
    exec i (setTPort p s) = mapNext (setTPort p) (exec i s) := by
  cases i with
  | wNop | wFull | wSize | wEmpty | wOvf | wReserved111 =>
    simp only [exec, execWNop, execWFull, execWSize, execWEmpty, execWOvf, execWReserved111]
    exact issueW_setTPort rfl
  | push | pushBlocking =>
    have hfull : (setTPort p s).fullW = s.fullW := rfl
    simp only [exec, execPush, execPushBlocking]
    refine issueW_setTPort ?_
    simp only [hfull]
    cases s.fullW <;> rfl
  | rNop | rReserved010 | rFull | rSize | rEmpty | rReserved110 | rReserved111 | noPort => rfl
  | pop =>
    have hempty : (setTPort p s).emptyR = s.emptyR := rfl
    have hread : (setTPort p s).mem.read (setTPort p s).tail.toNat = s.mem.read s.tail.toNat := rfl
    simp only [exec, execPop, issueR_eq, hempty]
    cases s.emptyR with
    | true => rfl
    | false =>
      rw [hread]
      cases s.mem.read s.tail.toNat <;> rfl
  | _ => exact absurd rfl hp

/-- Settles O56: the command keeps the T port, and commutes with putting another one in its place. -/
theorem fifoCommandsDoNotSeeTheCounter : Obligations.FifoCommandsDoNotSeeTheCounter := by
  intro i s t k busy ack target rd st hp hrun
  obtain ⟨hcount, hbusy, hack, htarget, hrd, hst⟩ := TPort.mk.inj (execEffect_keeps_tPort hp (exec_effect hrun))
  refine ⟨hcount, hbusy, hack, htarget, hrd, hst, ?_⟩
  have hother := exec_setTPort hp ⟨k, busy, ack, target, rd, st⟩ s
  rw [hrun] at hother
  exact hother

/-- Settles O57, by the effects a T command can have. -/
theorem counterCommandsChangeOnlyTheCounter : Obligations.CounterCommandsChangeOnlyTheCounter := by
  intro i s t hp hrun
  cases exec_effect hrun with
  | turnedAwayT => exact ⟨s.count, s.tBusy, s.tAck, s.tTarget, s.tRdata, s.tStatus, s.history, rfl, .inl rfl⟩
  | waitsT target => exact ⟨s.count, true, false, target, s.tRdata, s.tStatus, s.history, rfl, .inl rfl⟩
  | doneT m st rd =>
    exact ⟨s.count, s.tBusy, true, s.tTarget, rd.getD s.tRdata, st.code, s.recorded .t m st rd, rfl,
      .inr ⟨_, rfl, rfl⟩⟩
  | cleared =>
    exact ⟨0, s.tBusy, true, s.tTarget, s.tRdata, 0, s.recorded .t .init .ok none, rfl, .inr ⟨_, rfl, rfl⟩⟩
  | turnedAwayW hw | doneW _ _ _ hw => cases hp.symm.trans hw
  | doneR _ _ _ hr => cases hp.symm.trans hr
  | _ => cases hp

/-! ### A pending SLEEP_UNTIL and the other agents -/

/-- While a SLEEP_UNTIL is pending, only TENG and RST end the wait or change its target. -/
theorem agentEffect_while_tBusy {s t : State} {a : Agent} (hb : s.tBusy = true) (hteng : a ≠ .teng) (hrst : a ≠ .rst)
    (he : AgentEffect s a t) : t.tBusy = true ∧ t.tTarget = s.tTarget := by
  cases he with
  | nothing | wengCompletes | syncH | syncT | tick => exact ⟨hb, rfl⟩
  | tengCompletes => exact absurd rfl hteng
  | rst => exact absurd rfl hrst
  | issues p c rest i _ _ _ hready _ hp he =>
    have hne : i.port? ≠ some .t := by
      intro ht
      obtain rfl : p = .t := Option.some.inj (hp.symm.trans ht)
      simp [hb] at hready
    have hport : tPort (s.withPresented p rest) = tPort s := by cases p <;> rfl
    obtain ⟨-, hbusy, -, htarget, -⟩ := TPort.mk.inj ((execEffect_keeps_tPort hne he).trans hport)
    exact ⟨hbusy.trans hb, htarget⟩

/-- Settles O51: the wait and its target stay, and no tick and no INIT is taken, so the count stays. -/
theorem aSleepCompletionStaysEnabled : Obligations.ASleepCompletionStaysEnabled := by
  intro s t a hen hteng hrst hrun
  obtain ⟨hb, hle⟩ := tengEnabled_iff.mp hen
  obtain ⟨hb', htarget⟩ := agentEffect_while_tBusy hb hteng hrst (runAgent_effect hrun)
  have hnoInit : ¬ issuesInit (.agent a) s := fun ⟨_, hissue, _⟩ =>
    Bool.eq_false_iff.mp (not_enabled_treq_of_tBusy hb) hissue
  have hnoTick : ticksOf (.agent a) s = 0 := if_neg fun ⟨_, hoff⟩ => Bool.eq_false_iff.mp hoff hen
  have hcount : t.count.toNat = s.count.toNat := by
    rw [count_of_runAgent hrst hnoInit hrun, hnoTick, Nat.add_zero, Nat.mod_eq_of_lt s.count.isLt]
  exact ⟨tengEnabled_iff.mpr ⟨hb', by rw [htarget, hcount]; exact hle⟩, hcount⟩

/-- A wait whose target the counter cannot reach (42_counter_ops.md R176 corner case 2). -/
structure WaitsBeyond (target : Word64) (s : State) : Prop where
  busy : s.tBusy = true
  latched : s.tTarget = target
  beyond : 2 ^ s.cfg.CW ≤ target.toNat

theorem WaitsBeyond.tengEnabled {target : Word64} {s : State} (h : WaitsBeyond target s) : s.tengEnabled = false :=
  tengEnabled_eq_false.mpr (.inr (h.latched ▸ Nat.lt_of_lt_of_le s.count.isLt h.beyond))

theorem waitsBeyond_of_runAct {target : Word64} {a : Act} {s t : State} (hr : a ≠ .agent .rst)
    (h : WaitsBeyond target s) (hrun : runAct a s = .next t) : WaitsBeyond target t := by
  rcases runAct_effect hrun with ⟨g, rfl, he⟩ | ⟨p, -, rfl⟩ | ⟨p, cs, -, rfl⟩
  · by_cases hteng : g = .teng
    · subst hteng
      have hpass := Scope.anAgentThatIsNotEnabledChangesNothing .teng s h.tengEnabled
      obtain rfl := Host.Outcome.next.inj (hpass.symm.trans hrun)
      exact h
    · have ⟨hcfg, _⟩ := Registers.extends_of_runAct hrun
      obtain ⟨hb, htarget⟩ := agentEffect_while_tBusy h.busy hteng (fun e => hr (congrArg _ e)) he
      exact ⟨hb, htarget.trans h.latched, hcfg ▸ h.beyond⟩
  all_goals cases p <;> exact ⟨h.busy, h.latched, h.beyond⟩

/-- Settles O30: no act but a reset ends such a wait. -/
theorem aSleepBeyondTheCounterNeverCompletes : Obligations.ASleepBeyondTheCounterNeverCompletes := by
  intro s t acts hb hbeyond hr hrun
  obtain ⟨hb', htarget, -⟩ := Producer.runActs_keeps_without_rst waitsBeyond_of_runAct hr
    (WaitsBeyond.mk hb rfl hbeyond : WaitsBeyond s.tTarget s) hrun
  exact ⟨hb', htarget⟩

/-- The state `k` ticks on. -/
def ticked (s : State) (k : Nat) : State := { s with count := s.count + BitVec.ofNat s.cfg.CW k }

@[simp] theorem ticked_zero (s : State) : ticked s 0 = s := by simp [ticked]

/-- Short of a wrap the count rises by the ticks taken. -/
theorem ticked_count {s : State} {k : Nat} (hk : s.count.toNat + k < 2 ^ s.cfg.CW) :
    (ticked s k).count.toNat = s.count.toNat + k := by
  rw [ticked, toNat_add_index s.count k (by omega), if_pos hk]

/-- A tick short of the pending target is taken. -/
theorem runAct_tick_ticked {s : State} {k : Nat} (hreach : s.tTarget.toNat < 2 ^ s.cfg.CW)
    (hk : k < s.tTarget.toNat - s.count.toNat) :
    runAct (.agent .tick) (ticked s k) = .next (ticked s (k + 1)) := by
  have hcount : (ticked s k).count.toNat = s.count.toNat + k := ticked_count (by omega)
  have hlt : (ticked s k).count.toNat < (ticked s k).tTarget.toNat :=
    hcount ▸ (show s.count.toNat + k < s.tTarget.toNat by omega)
  have hnext : (ticked s k).tickStep = ticked s (k + 1) := by
    rw [ticked, ticked, Encoding.add_ofNat_succ]
    rfl
  exact hnext ▸ runAgent_tick_of_not_tengEnabled (tengEnabled_eq_false.mpr (.inr hlt))

/-- Settles O29: the missing ticks bring the count to the target, the extra ones pass, and TENG completes. -/
theorem aPendingSleepCompletesAtItsTarget : Obligations.APendingSleepCompletesAtItsTarget := by
  intro s hb hle hreach extra
  generalize hmissing : s.tTarget.toNat - s.count.toNat = missing
  have hcount : (ticked s missing).count.toNat = s.tTarget.toNat := by
    rw [ticked_count (by omega)]
    omega
  have hen : (ticked s missing).tengEnabled = true := tengEnabled_iff.mpr ⟨hb, hcount.ge⟩
  have hticks : runActs (List.replicate missing (.agent .tick)) s = .next (ticked s missing) := by
    simpa using Encoding.runActs_replicate (ticked s) missing fun k hk => runAct_tick_ticked hreach (hmissing ▸ hk)
  have hextra : runActs (List.replicate extra (.agent .tick)) (ticked s missing) = .next (ticked s missing) :=
    Encoding.runActs_replicate (fun _ => ticked s missing) extra fun _ _ => runAgent_tick_of_tengEnabled hen
  refine ⟨(ticked s missing).tengComplete, ?_, rfl, rfl, ?_, hcount⟩
  · rw [List.replicate_add, List.append_assoc, Encoding.runActs_append hticks,
      Encoding.runActs_append hextra, Encoding.runActs_singleton]
    exact runAgent_teng_of_enabled hen
  · exact BitVec.eq_of_toNat_eq ((zext64_toNat _ (CW_le_64 s.cfg)).trans hcount)

end Sys2Proof.Proofs.Counter
end

section
/-! PROOFS. 60_exceptions.md: a requester that presents another port's command (R218), and the order of the command and
the view's shift at one FIFO edge (R217 items 2 and 3). -/

namespace Sys2Proof.Proofs.Exceptions

open Sys2Proof Sys2Proof.Machine

variable {s u : State} {p : Port} {c : Cmd} {cs : List Cmd} {i : Instr}

/-! ### A requester's step at a ready port -/

/-- A command of the port itself runs (30_encoding.md R93). -/
theorem requesterStep_issues (hc : s.presented p = c :: cs) (hr : s.ready p = true) (hd : decode c = .ok i)
    (hp : i.port? = some p) : requesterStep p s = exec i (s.withPresented p cs) := by
  simp [requesterStep, hc, hr, hd, hp]

/-- A command of another port is refused (R218). -/
theorem requesterStep_refuses_foreignPort (hc : s.presented p = c :: cs) (hr : s.ready p = true)
    (hd : decode c = .ok i) (hp : i.port? ≠ some p) : requesterStep p s = .refused .foreignPort := by
  simp [requesterStep, hc, hr, hd, hp]

theorem step_refuses_foreignPort {xs : List Slot} (hs : s.sched = .agent (Registers.requester p) :: xs)
    (hc : s.presented p = c :: cs) (hr : s.ready p = true) (hd : decode c = .ok i) (hp : i.port? ≠ some p) :
    step s = .refused .foreignPort := by
  rw [Encoding.step_requester hs]
  exact requesterStep_refuses_foreignPort ((Encoding.presented_withSched s xs p).trans hc)
    ((Encoding.ready_withSched s xs p).trans hr) hd hp

/-- Settles O35: the refusal is the same on the three ports, and port R is always ready. -/
theorem aRequesterIssuesOnlyItsOwnPortsCommands : Obligations.ARequesterIssuesOnlyItsOwnPortsCommands :=
  fun s _ _ _ _ hd =>
  ⟨fun hs hc hb hp => step_refuses_foreignPort (p := .w) hs hc (by simp [hb]) hd hp,
    fun hs hc hp => step_refuses_foreignPort (p := .r) hs hc (Encoding.ready_r s) hd hp,
    fun hs hc hb hp => step_refuses_foreignPort (p := .t) hs hc (by simp [hb]) hd hp⟩

/-! ### One FIFO edge -/

/-- At a ready port W an edge issues the presented command, and the view's shifts come after it. -/
theorem wEdge_acts_issue (hb : s.wBusy = false) (hc : s.wCmds = c :: cs) (shift : Nat) :
    (Slot.wEdge true shift).acts s = .agent .wreq :: List.replicate shift (.agent .syncT) := by
  have hweng : s.wengEnabled = false := Producer.wengEnabled_eq_false.mpr (.inl hb)
  have hwreq : enabled .wreq s = true := by simp [enabled, State.wReady, hb, hc]
  simp [Slot.acts, wPortAct, hweng, hwreq]

/-- At port R an edge issues the presented command, and the view's shifts come after it. -/
theorem rEdge_acts_issue (hc : s.rCmds = c :: cs) (shift : Nat) :
    (Slot.rEdge true shift).acts s = .agent .rreq :: List.replicate shift (.agent .syncH) := by
  have hrreq : enabled .rreq s = true := by simp [enabled, State.rReady, hc]
  simp [Slot.acts, rPortAct, hrreq]

/-- Where the command of a `wclk` edge leaves the state `u`, the edge's view shift is SYNC_T's step from `u`. -/
theorem runSlot_wEdge_issue (hb : s.wBusy = false) (hc : s.wCmds = c :: cs) (hd : decode c = .ok i)
    (hp : i.port? = some .w) (he : exec i { s with wCmds := cs } = .next u) (hbehind : u.tailW ≠ u.tail) :
    runSlot (.wEdge true 1) s = .next u.syncTStep := by
  have hissue : runAct (.agent .wreq) s = .next u :=
    (requesterStep_issues (p := .w) hc (by simp [hb]) hd hp).trans he
  have hshift : runAct (.agent .syncT) u = .next u.syncTStep := if_neg hbehind
  rw [runSlot, wEdge_acts_issue hb hc, Counter.runActs_cons hissue, List.replicate_one, Encoding.runActs_singleton,
    hshift]

/-- Where the command of an `rclk` edge leaves the state `u`, the edge's view shift is SYNC_H's step from `u`. -/
theorem runSlot_rEdge_issue (hc : s.rCmds = c :: cs) (hd : decode c = .ok i) (hp : i.port? = some .r)
    (he : exec i { s with rCmds := cs } = .next u) (hbehind : u.headR ≠ u.head) :
    runSlot (.rEdge true 1) s = .next u.syncHStep := by
  have hissue : runAct (.agent .rreq) s = .next u :=
    (requesterStep_issues (p := .r) hc (Encoding.ready_r s) hd hp).trans he
  have hshift : runAct (.agent .syncH) u = .next u.syncHStep := if_neg hbehind
  rw [runSlot, rEdge_acts_issue hc, Counter.runActs_cons hissue, List.replicate_one, Encoding.runActs_singleton,
    hshift]

/-- Settles O37: the command is taken in the state before the edge, where the view is full or empty, and neither a
dropped PUSH nor an empty POP moves the index its view follows, so the shift is still due. -/
theorem oneFifoEdgeOrdersCommandBeforeViewShift : Obligations.OneFifoEdgeOrdersCommandBeforeViewShift := by
  refine ⟨fun s c cs d hb hc hd hfull hbehind => ?_, fun s c cs hc hd hempty hbehind => ?_⟩
  · have hdrop := Producer.exec_push_of_full (s := { s with wCmds := cs }) hb (fullW_eq_true.mpr hfull) d
    exact runSlot_wEdge_issue hb hc hd rfl hdrop hbehind
  · have hfail := Consumer.exec_pop_of_empty (s := { s with rCmds := cs }) (emptyR_eq_true.mpr hempty)
    exact runSlot_rEdge_issue hc hd rfl hfail hbehind

end Sys2Proof.Proofs.Exceptions
end

section
/-! PROOFS. 70_reset_and_hazards.md: the reset event (R240), what a weakly fair run owes a pending PUSH_BLOCKING (R262),
and the views at a quiescent point (R263). -/

namespace Sys2Proof.Proofs.Reset

open Sys2Proof Sys2Proof.Machine

/-! ### The reset event -/

/-- Settles O2, register by register: the state RST leaves is `resetStep`, and the mark it adds to the history is no
completion of any port. -/
theorem resetEventClearsTheBlockAndKeepsTheHistory : Obligations.ResetEventClearsTheBlockAndKeepsTheHistory := fun s =>
  ⟨s.resetStep, rfl, by simp⟩

/-! ### A quiescent point -/

theorem views_current_of_quiescent {s : State} (h : s.quiescent = true) : s.headR = s.head ∧ s.tailW = s.tail := by
  simp only [State.quiescent, Bool.and_eq_true, beq_iff_eq] at h
  obtain ⟨⟨⟨⟨⟨_, hheadR⟩, htailW⟩, _⟩, _⟩, _⟩ := h
  exact ⟨hheadR, htailW⟩

/-- Settles O49: each view's size is taken with one index seen late, which at a quiescent point is current. -/
theorem atAQuiescentPointEveryViewIsExact : Obligations.AtAQuiescentPointEveryViewIsExact := by
  intro s h
  obtain ⟨hheadR, htailW⟩ := views_current_of_quiescent h
  exact ⟨congrArg (s.head - ·) htailW, congrArg (· - s.tail) hheadR⟩

/-! ### Fair runs -/

/-- Weak fairness, used once: in a run without a reset, where every act but the agent's own step and a reset keeps a
condition that enables that step, the step is taken at a point where the condition still holds. Were it not, the
condition would hold for good, and fairness would have the step taken. -/
theorem taken_of_kept {r : InfiniteRun} {g : Agent} {P : State → Prop} {n : Nat} (hfair : r.weaklyFair g)
    (hrst : ∀ m, r.act m ≠ .agent .rst) (henables : ∀ {s}, P s → enabled g s = true)
    (hkeeps : ∀ {a s t}, a ≠ .agent g → a ≠ .agent .rst → P s → runAct a s = .next t → P t) (hn : P (r.state n)) :
    ∃ m, n ≤ m ∧ r.act m = .agent g ∧ P (r.state m) := by
  by_contra hnever
  have huntaken : ∀ m, n ≤ m → P (r.state m) → r.act m ≠ .agent g := fun m hm hP ha => hnever ⟨m, hm, ha, hP⟩
  have halways : ∀ m, n ≤ m → P (r.state m) := fun m hm => by
    induction m, hm using Nat.le_induction with
    | base => exact hn
    | succ m hm ih => exact hkeeps (huntaken m hm ih) (hrst m) ih (r.moves m)
  obtain ⟨m, hm, ha⟩ := hfair n fun m hm => henables (halways m hm)
  exact huntaken m hm (halways m hm) ha

/-- Once WENG's step is enabled it stays so through every other act but a reset, the host's acts included
(40_producer_ops.md R124). -/
theorem runAct_keeps_weng_enabled {a : Act} {s t : State} (hweng : a ≠ .agent .weng) (hrst : a ≠ .agent .rst)
    (h : s.Inv) (hen : enabled .weng s = true) (hrun : runAct a s = .next t) : enabled .weng t = true := by
  cases a with
  | agent g =>
    exact Producer.aPushCompletionStaysEnabled s t g h hen (fun e => hweng (congrArg _ e))
      (fun e => hrst (congrArg _ e)) hrun
  | quiet p =>
    obtain rfl := Host.Outcome.next.inj hrun
    cases p <;> exact hen
  | present p cs =>
    obtain rfl := Host.Outcome.next.inj hrun
    cases p <;> exact hen

/-- Settles O52: under the invariant the enabled step of WENG stays enabled, so fairness has it taken, and the step taken
is the completion. -/
theorem aFairRunCompletesAPendingPush : Obligations.AFairRunCompletesAPendingPush := by
  intro r n hfair hrst h hen
  obtain ⟨m, hm, ha, -, hen'⟩ := taken_of_kept (P := fun s => s.Inv ∧ enabled .weng s = true) hfair hrst And.right
    (fun hweng hrst ⟨h, hen⟩ hrun =>
      ⟨Fifo.inv_of_runAct h hrun, runAct_keeps_weng_enabled hweng hrst h hen hrun⟩)
    ⟨h, hen⟩
  obtain ⟨hbusy, hfree⟩ := wengEnabled_iff.mp hen'
  have hmove : runAct (r.act m) (r.state m) = .next (r.state m).wengComplete := by
    rw [ha]
    exact Fifo.runAgent_weng_of_not_full hbusy (fullW_eq_false.mpr hfree)
  have hnext : r.state (m + 1) = (r.state m).wengComplete :=
    Host.Outcome.next.inj ((r.moves m).symm.trans hmove)
  refine ⟨m, hm, ha, hbusy, ?_⟩
  rw [hnext]
  exact ⟨rfl, Registers.toNat_succ_mod (r.state m).head⟩

end Sys2Proof.Proofs.Reset
end
